-- ==== Sys2Proof/Word.lean ====
section
/-! DEFINITION. The words of the machine and the records that its event rows carry: bytes, registers, link packets,
boot images and the names of storage arrays. -/

namespace Sys2Proof

/-- One byte of memory. -/
abbrev Byte := BitVec 8

/-- The contents of one register (R61). -/
abbrev W64 := BitVec 64

/-- One word of code (R132), or one lane mask (R30). -/
abbrev W32 := BitVec 32

/-- A link packet (Table 12.8): header fields and the payload's bytes. -/
structure Packet where
  dst : Nat
  src : Nat
  vc : Nat
  flits : Nat
  kind : Nat
  tag : Nat
  addr : W64
  payload : List Byte
  deriving DecidableEq, Repr

/-- A boot image with its manifest (R277): the digest and the security version that the manifest states, the two public
keys that travel in it, and the two signatures over it. -/
structure Image where
  contents : List Byte
  digest : BitVec 384
  version : W64
  rsaModulus : BitVec 3072
  rsaExponent : W64
  slhKey : BitVec 256
  rsaSignature : BitVec 3072
  slhSignature : BitVec 62848
  deriving DecidableEq, Repr

/-- The island configuration held in on-package flash (R272, R273): the device id and the routing table's nonzero
entries, by device id. -/
structure IslandConfig where
  deviceId : BitVec 14
  routes : List (Nat × BitVec 16)
  /-- the table can be loaded (Table 21.4) -/
  loads : Bool
  deriving DecidableEq, Repr

/-- The four arrays whose corrected errors a core's power controller counts (Table 21.5). -/
inductive CoreArray where
  | pool
  | l1
  | icache
  | matrix
  deriving DecidableEq, Repr

/-- An entry of a core's store path (R86): the core, and the name that the entry got when it was added. -/
structure StoreSite where
  core : Nat
  store : Nat
  deriving DecidableEq, Repr

/-- The storage arrays of Table 20.1, with the place of the error in each. -/
inductive StorageSite where
  | hbm (sector : Nat)
  | l2Data (sector : Nat)
  | l2Tag (line : Nat)
  | syncLine (sector : Nat)
  | l1 (core sector : Nat)
  | icache (core sector : Nat)
  | readerIndex (die : Nat)
  | pool (core : Nat) (team : Option Nat)
  | caddy (die : Nat) (name : BitVec 128)
  deriving DecidableEq, Repr

/-- What a scrub of one sector met (R326). -/
inductive StorageResult where
  | clean
  | corrected
  | uncorrectable
  deriving DecidableEq, Repr

/-- What the matrix array's checks found (R340): the K-step passed, it failed once and its repetition passed, on the
leader's array, the follower's or both, it failed twice on the leader's array, or twice on the follower's. -/
inductive ArrayCheck where
  | passed
  | repeatedPassed
  | followerRepeated
  | bothRepeated
  | leaderFailed
  | followerFailed
  deriving DecidableEq, Repr

end Sys2Proof
end

