-- ==== Sys2Proof/Syntax.lean ====
section
/-! DEFINITION. The syntax of the machine: one constructor for each row of the opcode table. The first 174 are the
encoded words of R132 to R144, with the fields of their encodings as bit vectors (R133); the others are the
steps of the device that no word encodes: completions, internal events, host commands and writes, packets, island
and boot events. An operand called op, cmd, team, task, walk, fault, audit or launch is the name the machine gave
the thing when it came into being. -/

namespace Sys2Proof

/-- One row of the opcode table each. -/
inductive Instr where
  /-- CLAUSE_HEADER (R134): A clause header starts a clause for a path once its wait flags and set flags are clear, assigning completion flags to its flagged operations. -/
  | clauseHeader (w : BitVec 12) (a b l : BitVec 4) (y : BitVec 1)
  /-- BRA (R152): Unconditional branch to a clause header at an offset from the current header. -/
  | bra (o : BitVec 18)
  /-- BRP (R152): Branch in the active threads whose predicate is 1. -/
  | brp (p : BitVec 3) (o : BitVec 18)
  /-- BRNP (R152): Branch in the active threads whose predicate is 0. -/
  | brnp (p : BitVec 3) (o : BitVec 18)
  /-- BRZ (R152): Branch in the active threads whose register is zero. -/
  | brz (a : BitVec 7) (o : BitVec 18)
  /-- BRNZ (R152): Branch in the active threads whose register is nonzero. -/
  | brnz (a : BitVec 7) (o : BitVec 18)
  /-- CALL (R153): Pushes the next header onto the return stack and branches to a relative target. -/
  | call (o : BitVec 18)
  /-- CALLI (R153): Pushes the next header onto the return stack and branches to the address in a register. -/
  | calli (a : BitVec 7)
  /-- RET (R153): Pops the return stack into the thread's next PC. -/
  | ret
  /-- JMPI (R152): Jumps to the clause header whose address a register holds. -/
  | jmpi (a : BitVec 7)
  /-- EXIT (R154): Ends each active thread, clearing its mask bits and releasing masks it leaves. -/
  | exit
  /-- REP (R141): Repeats the next word 1 to 64 times, stepping its register fields. -/
  | rep (c : BitVec 6) (d a b : BitVec 3)
  /-- GRD (R142): Guards the next word by a predicate, optionally negated. -/
  | grd (n : BitVec 1) (p : BitVec 3)
  /-- WBASE (R156): Sets the thread's register window base. -/
  | wbase (i : BitVec 11)
  /-- JOIN (R157): Sets the active threads' bits in a lane-mask register. -/
  | join (m : BitVec 7)
  /-- LEAVE (R157): Clears the active threads' bits in a mask and tries to release its waiters. -/
  | leave (m : BitVec 7)
  /-- WAITM (R30): Member threads wait on a mask until every member waits, then all are released together with gang-scope release and acquire. -/
  | waitm (m : BitVec 7)
  /-- MSET (R157): Writes a mask from the highest active lane's register and releases non-members or completes the mask. -/
  | mset (m b : BitVec 7)
  /-- MGET (R157): Reads a mask register into a destination register. -/
  | mget (d m : BitVec 7)
  /-- ANY (R159): Sets a predicate if any active thread's register is nonzero. -/
  | anyVote (p a : BitVec 7)
  /-- ALL (R159): Sets a predicate if every active thread's register is nonzero. -/
  | allVote (p a : BitVec 7)
  /-- BALLOT (R159): Returns the lanes of active threads whose register is nonzero. -/
  | ballot (d a : BitVec 7)
  /-- ELECT (R159): Sets a predicate in the lowest-lane active thread only. -/
  | elect (p : BitVec 7)
  /-- MATCH (R159): Returns the lanes of active threads holding an equal register value. -/
  | matchLanes (d a : BitVec 7)
  /-- ACTIVE (R159): Returns the lanes of the active threads. -/
  | active (d : BitVec 7)
  /-- REWARP (R160): Hands each thread to the regroup unit with a key and a window count. -/
  | rewarp (a n : BitVec 7)
  /-- YIELD (R161): Hints that the gang may move to the pending set when the clause retires. -/
  | yield
  /-- BRK (R162): Enters handler mode with cause TRAP and an immediate code. -/
  | brk (c : BitVec 7)
  /-- TRAP (R162): Enters handler mode with cause TRAP and a register value as TRAPINFO. -/
  | trap (a : BitVec 7)
  /-- ERET (R301): Leaves handler mode and resumes at TRAPPC, at a header or inside the trapped clause. -/
  | eret
  /-- SRD (R164): Reads a status register into a destination register. -/
  | srd (d i j : BitVec 7)
  /-- SWR (R164): Writes a register value to a status register. -/
  | swr (s i j : BitVec 7)
  /-- ICINV (R165): Invalidates the issuing core's instruction cache. -/
  | icinv
  /-- CNTC (R166): Returns the core cycle counter, or the retired-word count under DET. -/
  | cntc (d : BitVec 7)
  /-- CNTI (R166): Returns the thread's count of retired words. -/
  | cnti (d : BitVec 7)
  /-- ADD (R167): Element-wise integer addition, wrapping or saturating. -/
  | add (u s : BitVec 1) (e : BitVec 2) (d a b : BitVec 7)
  /-- SUB (R167): Element-wise integer subtraction, wrapping or saturating. -/
  | sub (u s : BitVec 1) (e : BitVec 2) (d a b : BitVec 7)
  /-- ADDI (R168): Adds a signed 11-bit immediate to a register. -/
  | addi (d a : BitVec 7) (i : BitVec 11)
  /-- MUL (R167): Element-wise integer multiplication, low or high half. -/
  | mul (u h : BitVec 1) (e : BitVec 2) (d a b : BitVec 7)
  /-- MAD (R167): Element-wise multiply-add into the destination. -/
  | mad (e : BitVec 2) (d a b : BitVec 7)
  /-- MIN (R167): Element-wise integer minimum. -/
  | min (u : BitVec 1) (e : BitVec 2) (d a b : BitVec 7)
  /-- MAX (R167): Element-wise integer maximum. -/
  | max (u : BitVec 1) (e : BitVec 2) (d a b : BitVec 7)
  /-- ABS (R169): Element-wise absolute value. -/
  | abs (d a : BitVec 7) (e : BitVec 2)
  /-- NEG (R169): Element-wise negation. -/
  | neg (d a : BitVec 7) (e : BitVec 2)
  /-- NOT (R169): Element-wise bit inversion. -/
  | not (d a : BitVec 7) (e : BitVec 2)
  /-- POPC (R169): Element-wise population count. -/
  | popc (d a : BitVec 7) (e : BitVec 2)
  /-- CLZ (R169): Element-wise count of leading zeros. -/
  | clz (d a : BitVec 7) (e : BitVec 2)
  /-- CTZ (R169): Element-wise count of trailing zeros. -/
  | ctz (d a : BitVec 7) (e : BitVec 2)
  /-- BREV (R169): Element-wise bit reversal. -/
  | brev (d a : BitVec 7) (e : BitVec 2)
  /-- BSWAP (R169): Element-wise byte reversal. -/
  | bswap (d a : BitVec 7) (e : BitVec 2)
  /-- AND (R170): Bitwise AND of two registers. -/
  | and (d a b : BitVec 7)
  /-- OR (R170): Bitwise OR of two registers. -/
  | or (d a b : BitVec 7)
  /-- XOR (R170): Bitwise XOR of two registers. -/
  | xor (d a b : BitVec 7)
  /-- ANDN (R170): Bitwise a AND NOT b. -/
  | andn (d a b : BitVec 7)
  /-- ORN (R170): Bitwise a OR NOT b. -/
  | orn (d a b : BitVec 7)
  /-- XNOR (R170): Bitwise NOT (a XOR b). -/
  | xnor (d a b : BitVec 7)
  /-- ANDI (R170): Bitwise AND with a sign-extended immediate. -/
  | andi (d a : BitVec 7) (i : BitVec 11)
  /-- ORI (R170): Bitwise OR with a sign-extended immediate. -/
  | ori (d a : BitVec 7) (i : BitVec 11)
  /-- XORI (R170): Bitwise XOR with a sign-extended immediate. -/
  | xori (d a : BitVec 7) (i : BitVec 11)
  /-- SHL (R171): Element-wise left shift by register amounts. -/
  | shl (e : BitVec 2) (d a b : BitVec 7)
  /-- SHR (R171): Element-wise logical right shift by register amounts. -/
  | shr (e : BitVec 2) (d a b : BitVec 7)
  /-- SAR (R171): Element-wise arithmetic right shift by register amounts. -/
  | sar (e : BitVec 2) (d a b : BitVec 7)
  /-- ROL (R171): Element-wise rotate left by register amounts. -/
  | rol (e : BitVec 2) (d a b : BitVec 7)
  /-- SHLI (R171): 64-bit left shift by an immediate amount. -/
  | shli (d a : BitVec 7) (n : BitVec 6)
  /-- SHRI (R171): 64-bit logical right shift by an immediate amount. -/
  | shri (d a : BitVec 7) (n : BitVec 6)
  /-- SARI (R171): 64-bit arithmetic right shift by an immediate amount. -/
  | sari (d a : BitVec 7) (n : BitVec 6)
  /-- ROLI (R171): 64-bit rotate left by an immediate amount. -/
  | roli (d a : BitVec 7) (n : BitVec 6)
  /-- BFX (R172): Extracts a bit field, zero- or sign-extended. -/
  | bfx (s : BitVec 1) (d a b : BitVec 7)
  /-- BFI (R172): Inserts a bit field into the destination. -/
  | bfi (d a b : BitVec 7)
  /-- CMP (R173): Compares two registers and sets a predicate. -/
  | cmp (w : BitVec 1) (c : BitVec 3) (p a b : BitVec 7)
  /-- CMPI (R173): Compares a register with an immediate and sets a predicate. -/
  | cmpi (c : BitVec 4) (p : BitVec 3) (a : BitVec 7) (i : BitVec 11)
  /-- SEL (R174): Selects one of two registers by a predicate. -/
  | sel (n : BitVec 1) (p : BitVec 3) (d a b : BitVec 7)
  /-- MOV (R175): Copies a register. -/
  | mov (d a : BitVec 7)
  /-- PGET (R175): Reads the eight predicates into a register. -/
  | pget (d : BitVec 7)
  /-- PSET (R175): Sets the eight predicates from a register. -/
  | pset (a : BitVec 7)
  /-- PAND (R175): Predicate AND. -/
  | pand (d a b : BitVec 7)
  /-- POR (R175): Predicate OR. -/
  | por (d a b : BitVec 7)
  /-- PXOR (R175): Predicate XOR. -/
  | pxor (d a b : BitVec 7)
  /-- PNOT (R175): Predicate NOT. -/
  | pnot (d a : BitVec 7)
  /-- MVI (R176): Writes a sign-extended 18-bit immediate to a register. -/
  | mvi (d : BitVec 7) (i : BitVec 18)
  /-- MVH1 (R176): Replaces bits 35:18 of a register. -/
  | mvh1 (d : BitVec 7) (i : BitVec 18)
  /-- MVH2 (R176): Replaces bits 53:36 of a register. -/
  | mvh2 (d : BitVec 7) (i : BitVec 18)
  /-- MVH3 (R176): Replaces bits 63:54 of a register. -/
  | mvh3 (d : BitVec 7) (i : BitVec 10)
  /-- LEA (R168): Computes a plus b scaled by 1, 2, 4 or 8. -/
  | lea (s : BitVec 2) (d a b : BitVec 7)
  /-- PDOT2 (R177): Accumulates dot products of 16-bit pairs into 32-bit elements with saturation. -/
  | pdot2 (u : BitVec 1) (d a b : BitVec 7)
  /-- PSRR (R178): Shifts signed elements right with rounding. -/
  | psrr (e : BitVec 2) (d a b : BitVec 7)
  /-- PNARROW (R179): Narrows elements of two registers to half width with saturation. -/
  | pnarrow (u : BitVec 1) (e : BitVec 2) (d a b : BitVec 7)
  /-- PWIDEN (R180): Widens half of a register's elements to twice their width. -/
  | pwiden (x h : BitVec 1) (e : BitVec 2) (d a : BitVec 7)
  /-- FADD (R182): Element-wise floating-point addition. -/
  | fadd (r t : BitVec 2) (d a b : BitVec 7)
  /-- FSUB (R182): Element-wise floating-point subtraction. -/
  | fsub (r t : BitVec 2) (d a b : BitVec 7)
  /-- FMUL (R182): Element-wise floating-point multiplication. -/
  | fmul (r t : BitVec 2) (d a b : BitVec 7)
  /-- FFMA (R182): Element-wise fused multiply-add into the destination. -/
  | ffma (r t : BitVec 2) (d a b : BitVec 7)
  /-- FMIN (R184): Element-wise floating-point minimum. -/
  | fmin (n : BitVec 1) (t : BitVec 2) (d a b : BitVec 7)
  /-- FMAX (R184): Element-wise floating-point maximum. -/
  | fmax (n : BitVec 1) (t : BitVec 2) (d a b : BitVec 7)
  /-- FABS (R185): Clears the sign bit of each element. -/
  | fabs (t : BitVec 2) (d a : BitVec 7)
  /-- FNEG (R185): Inverts the sign bit of each element. -/
  | fneg (t : BitVec 2) (d a : BitVec 7)
  /-- FCPYS (R185): Copies the sign bit of b onto each element of a. -/
  | fcpys (t : BitVec 2) (d a b : BitVec 7)
  /-- FCMP (R186): Compares element 0 of two registers and sets a predicate. -/
  | fcmp (c t : BitVec 2) (p a b : BitVec 7)
  /-- FPCMP (R187): Compares every element and writes the active threads' results into a mask. -/
  | fpcmp (c t : BitVec 2) (m a b : BitVec 7)
  /-- FCVT (R188): Converts between floating-point and slot formats by conversion code. -/
  | fcvt (c : BitVec 4) (d a : BitVec 7) (r : BitVec 2) (s : BitVec 3)
  /-- FRND (R191): Rounds each element to an integral value. -/
  | frnd (r t : BitVec 2) (d a : BitVec 7)
  /-- FTOI (R192): Converts floating-point elements to integers of the same width. -/
  | ftoi (r t : BitVec 2) (d a : BitVec 7) (u : BitVec 1)
  /-- ITOF (R193): Converts integer elements to floating point. -/
  | itof (r t : BitVec 2) (d a : BitVec 7) (u : BitVec 1)
  /-- FRCP (R194): Reciprocal of each element. -/
  | frcp (f : BitVec 1) (d a : BitVec 7)
  /-- FRSQ (R194): Reciprocal square root of each element. -/
  | frsq (f : BitVec 1) (d a : BitVec 7)
  /-- FSQRT (R194): Square root of each element. -/
  | fsqrt (f : BitVec 1) (d a : BitVec 7)
  /-- FEX2 (R194): Base-2 exponential of each F32 element. -/
  | fex2 (d a : BitVec 7)
  /-- FLG2 (R194): Base-2 logarithm of each F32 element. -/
  | flg2 (d a : BitVec 7)
  /-- FSIN (R194): Sine of each F32 element. -/
  | fsin (d a : BitVec 7)
  /-- FCOS (R194): Cosine of each F32 element. -/
  | fcos (d a : BitVec 7)
  /-- FTNH (R194): Hyperbolic tangent of each F32 element. -/
  | ftnh (d a : BitVec 7)
  /-- FSCL (R196): Scales each element by a power of two from b. -/
  | fscl (t : BitVec 2) (d a b : BitVec 7)
  /-- FCLS (R197): Classifies each element as a one-hot class code. -/
  | fcls (t : BitVec 2) (d a : BitVec 7)
  /-- SHFL (R199): Each element takes a selected element of an active lane. -/
  | shfl (e : BitVec 2) (d a b : BitVec 7)
  /-- SLIDE (R201): Moves the active threads' element vector up or down by one element with a fill. -/
  | slide (e : BitVec 2) (v : BitVec 1) (d a b : BitVec 7)
  /-- BCST (R200): Broadcasts one selected element to every active thread. -/
  | bcst (e : BitVec 2) (d a b : BitVec 7)
  /-- LSCAN (R202): Scans elements across the active threads in rank order. -/
  | lscan (i : BitVec 1) (o : BitVec 3) (d a : BitVec 7) (e : BitVec 2)
  /-- LSSCAN (R203): Segmented scan across the active threads with head flags. -/
  | lsscan (i : BitVec 1) (o : BitVec 3) (d a b : BitVec 7)
  /-- LRED (R204): Reduces elements across the active threads. -/
  | lred (i : BitVec 1) (o : BitVec 3) (d a : BitVec 7) (e : BitVec 2)
  /-- ISECT (R205): Intersects two sorted key lists held across lanes. -/
  | isect (d a b : BitVec 7)
  /-- LDD (R207): Loads 8 bytes from memory. -/
  | ldd (d a : BitVec 7) (i : BitVec 11)
  /-- LDW (R207): Loads 4 bytes, zero-extended. -/
  | ldw (d a : BitVec 7) (i : BitVec 11)
  /-- LDH (R207): Loads 2 bytes, zero-extended. -/
  | ldh (d a : BitVec 7) (i : BitVec 11)
  /-- LDB (R207): Loads 1 byte, zero-extended. -/
  | ldb (d a : BitVec 7) (i : BitVec 11)
  /-- LDX (R207): Loads 1 to 8 bytes at a + b, optionally sign-extended and streaming. -/
  | ldx (t s : BitVec 1) (e : BitVec 2) (d a b : BitVec 7)
  /-- STD (R207): Stores 8 bytes to memory. -/
  | std (d a : BitVec 7) (i : BitVec 11)
  /-- STW (R207): Stores 4 bytes to memory. -/
  | stw (d a : BitVec 7) (i : BitVec 11)
  /-- STH (R207): Stores 2 bytes to memory. -/
  | sth (d a : BitVec 7) (i : BitVec 11)
  /-- STB (R207): Stores 1 byte to memory. -/
  | stb (d a : BitVec 7) (i : BitVec 11)
  /-- STX (R207): Stores 1 to 8 bytes at a + b. -/
  | stx (e : BitVec 2) (d a b : BitVec 7)
  /-- LDS (R209): Loads from the team's scratchpad. -/
  | lds (s : BitVec 1) (e : BitVec 2) (d a b : BitVec 7)
  /-- STS (R209): Stores to the team's scratchpad. -/
  | sts (e : BitVec 2) (d a b : BitVec 7)
  /-- PRFL1 (R210): Prefetches a line into the core's L1. -/
  | prfl1 (a b : BitVec 7)
  /-- PRFL2 (R210): Prefetches a line into its home L2 slice. -/
  | prfl2 (a b : BitVec 7)
  /-- DSCD (R210): Removes a line from the core's L1. -/
  | dscd (a b : BitVec 7)
  /-- ATOM (R211): 64-bit atomic read-modify-write at the home sync engine, returning the old value. -/
  | atom (o : BitVec 4) (d a b : BitVec 7)
  /-- ATOMW (R211): 32-bit atomic read-modify-write returning the old value. -/
  | atomw (o : BitVec 4) (d a b : BitVec 7)
  /-- ATRED (R211): Atomic reduction without a returned value, counted as a store. -/
  | atred (o : BitVec 4) (z : BitVec 1) (a b : BitVec 7)
  /-- CAS (R213): Compare-and-swap at the home sync engine. -/
  | cas (w : BitVec 1) (d a b : BitVec 7)
  /-- FENCE (R214): Acquire, release or both at team, device or system scope. -/
  | fence (s k : BitVec 2)
  /-- WAITF (R215): Blocks until an observed memory word satisfies a condition. -/
  | waitf (c : BitVec 2) (d a b : BitVec 7)
  /-- BARS (R217): Arrives at a named barrier and waits for the episode. -/
  | bars (i : BitVec 10)
  /-- BARA (R217): Arrives at a named barrier, completing the episode at the expected count. -/
  | bara (i : BitVec 10)
  /-- BARW (R217): Waits for the episode of the thread's latest arrival. -/
  | barw (i : BitVec 10)
  /-- BARI (R217): Sets a named barrier's expected count. -/
  | bari (a : BitVec 7) (i : BitVec 10)
  /-- GBAR (R218): Device-scope barrier over the root teams of a COOP launch. -/
  | gbar
  /-- TLWAIT (R223): Blocks until an engine context's timeline counter reaches a value, then acquires. -/
  | tlwait (c : BitVec 4) (a : BitVec 7)
  /-- TLRD (R223): Reads an engine context's timeline counter. -/
  | tlrd (c : BitVec 4) (d : BitVec 7)
  /-- STQ (R221): Writes a queue register from the highest active lane. -/
  | stq (q : BitVec 2) (a : BitVec 7)
  /-- GO_COPY (R222): Validates and queues a copy-engine command, returning its ticket. -/
  | goCopy (d c : BitVec 7)
  /-- GO_GATHER (R222): Validates and queues a gather-engine command, returning its ticket. -/
  | goGather (d c : BitVec 7)
  /-- TXB (R220): Opens a transaction for the active threads. -/
  | txb
  /-- TXC (R220): Sends the transaction log for validation and commit. -/
  | txc (d : BitVec 7)
  /-- TXA (R220): Aborts the open transaction with a user code. -/
  | txa (a : BitVec 7)
  /-- TXS (R220): Reads the status of the gang's open or last transaction. -/
  | txs (d : BitVec 7)
  /-- MMA (R235): Issues one K-step matrix multiply-accumulate into an accumulator tile. -/
  | mma (o p s u : BitVec 1) (t a b : BitVec 7)
  /-- ACCRD (R241): Reads a tile into gang 0's registers through a format slot. -/
  | accrd (f : BitVec 1) (k : BitVec 3) (d t : BitVec 7) (y : BitVec 2)
  /-- ACCWR (R241): Writes a tile from gang 0's registers through a format slot. -/
  | accwr (f : BitVec 1) (k : BitVec 3) (t a : BitVec 7) (y : BitVec 2)
  /-- ACCZ (R242): Zeroes a run of accumulator tiles. -/
  | accz (f : BitVec 1) (t n : BitVec 7)
  /-- SPAWN (R245): Reads a descriptor and creates a child task in the launch. -/
  | spawn (d a b : BitVec 7)
  /-- SPAWNR (R247): Sends a task packet with dealt weight to a queue handle. -/
  | spawnr (d a b : BitVec 7)
  /-- TAIL (R248): Enqueues a launch record as a child launch after this launch retires. -/
  | tail (d a : BitVec 7)
  /-- CLAIM (R249): Presents a claim name to the caddy and receives DONE, MAKER, WAITER or FULL, or waits. -/
  | claim (n : BitVec 1) (d a : BitVec 7)
  /-- FULFIL (R250): Publishes a handle for a MAKING entry and wakes its queued waiters. -/
  | fulfil (a b : BitVec 7)
  /-- RELINQ (R250): Hands a MAKING entry to its oldest waiter or makes it ABSENT. -/
  | relinq (a : BitVec 7)
  /-- FORGET (R250): Makes an unpinned DONE entry ABSENT. -/
  | forget (a : BitVec 7)
  /-- EDIT (R251): Stores 8 bytes as an edit that marks the readers of a changed input granule. -/
  | edit (d a : BitVec 7) (i : BitVec 11)
  /-- PROP (R252): Starts or joins a propagation of a launch's live trace. -/
  | propagate (y : BitVec 1) (d a b : BitVec 7)
  /-- TRCON (R253): Turns read recording on for the issuing thread. -/
  | trcon
  /-- TRCOFF (R253): Turns read recording off for the issuing thread. -/
  | trcoff
  /-- TDIG (R254): Waits for acknowledgements and returns the task digest so far. -/
  | tdig (d : BitVec 7)
  /-- TSTAT (R255): Returns a snapshot of a launch's trace status. -/
  | tstat (d a : BitVec 7)
  /-- RBGIVE (R257): Moves a block of registers into an empty register-block slot. -/
  | rbgive (k a : BitVec 7) (n : BitVec 3)
  /-- RBTAKE (R257): Takes a block of registers from a full register-block slot. -/
  | rbtake (d k : BitVec 7) (n : BitVec 3)
  /-- GANG_VOTE (R26): A gang with a free path groups its runnable threads by PC and starts the chosen clause. -/
  | gangVote (team gang : Nat)
  /-- REGROUP (R32): Once every live thread waits at REWARP and flagged operations drain, threads are sorted by key and placed anew. -/
  | regroup (team : Nat)
  /-- LOAD_COMPLETE (R87): A load's data returns, writes its destination and clears its flag once complete for the path. -/
  | loadComplete (op : Nat)
  /-- ATOMIC_COMPLETE (R92): A returning atomic or CAS performed at the sync engine returns its old value and clears its flag. -/
  | atomicComplete (op : Nat)
  /-- STORE_ACKNOWLEDGE (R86): The home slice or sync engine accepts a store or reduction, the L1 is updated and the gang's count falls. -/
  | storeAcknowledge (site : StoreSite)
  /-- WAITF_OBSERVATION (R215): A blocked WAITF re-observes its location after a write reaches the line, or under DET at its grant. -/
  | waitfObservation (team gang lane : Nat)
  /-- CLAIM_RESULT_DELIVERY (R249): A waiting CLAIM receives DONE or MAKER-HANDOVER and its thread becomes runnable. -/
  | claimResultDelivery (op : Nat)
  /-- TXC_COMPLETE (R96): The commit units lock, validate and commit or abort a transaction log and deliver the status. -/
  | txcComplete (op : Nat)
  /-- SPAWN_COMPLETE (R245): Every active thread's child exists or is spliced, its ordinal is written and the flag clears. -/
  | spawnComplete (op : Nat)
  /-- SPAWNR_DEPARTURE (R247): A task packet leaves the device and the SPAWNR flag clears. -/
  | spawnrDeparture (op : Nat)
  /-- MMA_COMPLETE (R239): The array consumes an MMA's last unit, checks it, writes the tile and clears its flag. -/
  | mmaComplete (op : Nat) (check : ArrayCheck)
  /-- ACCRD_COMPLETE (R240): An ACCRD writes its converted tile elements and clears its flag. -/
  | accrdComplete (op : Nat)
  /-- ENGINE_COMMAND_START (R94): A queued engine command starts once the issuing gang's unacknowledged count is zero. -/
  | engineCommandStart (cmd : Nat)
  /-- COPY_COMMAND_COMPLETE (R227): A copy command finishes writing its destination. -/
  | copyCommandComplete (cmd : Nat)
  /-- GATHER_COMMAND_COMPLETE (R228): A gather command has written every element to scratch. -/
  | gatherCommandComplete (cmd : Nat)
  /-- LAUNCH_DISPATCH (R38): A queue head launch is checked and its root descriptor instantiated as root tasks. -/
  | launchDispatch (queue : Nat)
  /-- TEAM_ADMISSION (R43): A core admits a waiting team when every resource demand fits. -/
  | teamAdmission (task : Nat)
  /-- ZEROING_COMPLETE (R37): Zeroing and initial state complete and the team starts running. -/
  | zeroingComplete (team : Nat)
  /-- TASK_END (R49): An exiting team's stores are all acknowledged; it releases, frees resources and returns its weight. -/
  | taskEnd (team : Nat)
  /-- RECKONER_START_TASK (R119): The reckoner starts the least startable STALE task within the propagation window. -/
  | reckonerStartTask (ctx : Nat)
  /-- DET_GRANT (R54): The gang with the least logical clock performs its synchronising operation and parked gangs advance. -/
  | detGrant (launch : Nat)
  /-- KILL_DRAIN_COMPLETE (R303): A killed team's drain ends; record written, entries handed over, resources and weight returned. -/
  | killDrainComplete (team : Nat)
  /-- PREEMPT_DRAIN_COMPLETE (R50): A draining team's operations complete and its state is saved. -/
  | preemptDrainComplete (team : Nat)
  /-- TEAM_RESTORE (R52): A SAVED team is admitted on a core and its state reloaded. -/
  | teamRestore (team : Nat)
  /-- TABLE_WALK_COMPLETE (R261): The walker finishes a translation walk, installing it, zeroing a page or posting a page fault. -/
  | tableWalkComplete (walk : Nat)
  /-- FAULT_RECORD_POST (R310): A fault record waiting for room is written when the fault queue has room. -/
  | faultRecordPost
  /-- INVAL_COMPLETE (R262): Every TLB has dropped the translations and old walks have ended. -/
  | invalComplete (inval : Nat)
  /-- AUDIT_REPLAY (R338): The auditor replays a selected finished task on another core from its log. -/
  | auditReplay (audit : Nat)
  /-- AUDIT_REPLAY_END (R339): The replay digest is compared, and a mismatch records and re-executes the task. -/
  | auditReplayEnd (audit : Nat)
  /-- L2_SCRUB (R326): A slice reads and corrects each sector once per scrub period. -/
  | l2Scrub (sector : Nat) (result : StorageResult)
  /-- STORAGE_ERROR (R326): A storage array meets an error, corrected or uncorrectable. -/
  | storageError (site : StorageSite) (corrected : Bool)
  /-- CTXSET (R259): Configures a context's tables, arenas and quotas. -/
  | ctxset (ctx table privBase privSize saveBase saveSize gangQuota poolQuota : Nat)
  /-- QCFG (R38): Creates a launch queue empty with context, priority and ring, advancing its generation. -/
  | qcfg (queue ctx priority ringBase entries template : Nat)
  /-- QDESTROY (R266): Disables an empty idle queue. -/
  | qdestroy (queue : Nat)
  /-- INVAL (R262): Requests TLB invalidation of a context's pages. -/
  | inval (ctx va pages : Nat)
  /-- RESOLVE (R264): Retries or fails a parked page fault. -/
  | resolve (fault action : Nat)
  /-- APERTURE (R83): Sets a system-window aperture entry. -/
  | aperture (entry kind target : Nat)
  /-- TRREL (R104): Releases a context's live trace when READY or FAILED. -/
  | trrel (ctx : Nat)
  /-- BUDGET (R43): Sets a core's energy budget. -/
  | budget (core budget : Nat)
  /-- BACKING (R128): Sets the caddy backing area before the first launch. -/
  | backing (base entries : Nat)
  /-- PREEMPT (R44): Pre-empts the named teams of a context, optionally holding them saved. -/
  | preempt (ctx core slot hold : Nat)
  /-- FQSET (R264): Sets the device fault queue. -/
  | fqset (base entries vector : Nat)
  /-- MCQSET (R306): Sets the machine-check ring and resets its head and tail. -/
  | mcqset (base entries vector : Nat)
  /-- RESUME (R44): Ends a pre-emption hold on a context. -/
  | resume (ctx : Nat)
  /-- AUDIT (R337): Writes AUDITCTL of the named cores. -/
  | audit (core enable k : Nat)
  /-- QTAIL_WRITE (R267): Appends a launch record address to a queue's ring or drops it. -/
  | qtailWrite (queue size address : Nat)
  /-- QSTAT_WRITE (R267): Writing 1 to QSTAT.dropped clears it. -/
  | qstatWrite (queue : Nat) (value : BitVec 64)
  /-- EDWIN_WRITE (R268): A 16-byte host write applies one edit in the context of EDCTX. -/
  | edwinWrite (size : Nat) (address data : BitVec 64)
  /-- MCHEAD_WRITE (R307): System software advances the machine-check ring head. -/
  | mcheadWrite (value : Nat)
  /-- REGISTER_WRITE (R265): A host write to a BAR0 register with no behaviour of its own, such as EDCTX. -/
  | registerWrite (offset size : Nat) (value : BitVec 512)
  /-- HOST_MEMORY_WRITE (R268): A host posted write through BAR2 is applied at the home slice. -/
  | hostMemoryWrite (address : Nat) (data : List Byte)
  /-- HOST_MEMORY_READ (R328): A host read through BAR2 returns data, or a poisoned completion. -/
  | hostMemoryRead (address size : Nat)
  /-- PACKET_FORWARD (R270): The island router forwards a packet by its routing table and virtual channel. -/
  | packetForward (port : Nat) (packet : Packet)
  /-- TASK_PACKET_ARRIVAL (R40): A task packet arrives and is enqueued as a launch or refused. -/
  | taskPacketArrival (packet : Packet)
  /-- REMOTE_REQUEST_ARRIVAL (R345): A read, write or atomic request for this device arrives and is served or refused. -/
  | remoteRequestArrival (packet : Packet)
  /-- RESPONSE_ARRIVAL (R271): A response to an earlier system-window request arrives and completes it. -/
  | responseArrival (packet : Packet)
  /-- ACKNOWLEDGEMENT_ARRIVAL (R346): An acknowledgement settles a SPAWNR ticket and returns its weight. -/
  | acknowledgementArrival (packet : Packet)
  /-- NEGATIVE_ACK_ARRIVAL (R347): A refusal arrives, returning weight or killing or acknowledging the request. -/
  | negativeAckArrival (packet : Packet)
  /-- LINK_FLIT_ERROR (R342): A flit fails its CRC and is replayed, retrained or the port retired. -/
  | linkFlitError (port : Nat) (replayed : Bool)
  /-- LINK_ERROR_WINDOW (R342): A port's corrected-error window ends and an excessive count retires it. -/
  | linkErrorWindow (port count : Nat)
  /-- LINK_PORT_DOWN (R344): A link goes down and its packets are re-sent on alternate ports. -/
  | linkPortDown (port : Nat)
  /-- ISLAND_RAIL_GOOD (R274): Island power comes up and the island enters BOOT. -/
  | islandRailGood
  /-- ISLAND_RAIL_LOST (R350): Island power is lost; the island goes OFF and port 12 goes down. -/
  | islandRailLost
  /-- ISLAND_ONLY_RESET (R275): The island resets to BOOT while the compute side keeps running. -/
  | islandOnlyReset
  /-- COMPUTE_ONLY_RESET (R275): The compute side resets and the island enters DRAIN. -/
  | computeOnlyReset
  /-- COMPUTE_POWER_OFF (R349): Compute power is removed, losing all compute state. -/
  | computePowerOff
  /-- REGULATOR_TRIP (R349): A regulator's protective trip removes compute power. -/
  | regulatorTrip (regulator : Nat)
  /-- ISLAND_DRAIN_COMPLETE (R348): Outstanding local requests are answered and the island enters FORWARD. -/
  | islandDrainComplete
  /-- ISLAND_RETURN_FULL (R350): Port 12 returns; lost requests are answered and unaccepted task packets resent. -/
  | islandReturnFull
  /-- ISLAND_UNAVAILABLE (R351): Port 12 reports the island unavailable and the B-die answers requests locally. -/
  | islandUnavailable
  /-- ROOT_OF_TRUST_CHECK (R276): The island ROM checks the root of trust's fuses. -/
  | rootOfTrustCheck (fusesReadable : Bool)
  /-- ISLAND_FIRMWARE_LOAD (R276): The ROM loads and verifies island firmware. -/
  | islandFirmwareLoad (image : Image)
  /-- LINK_TRAINING (R276): Firmware brings up management, trains links, loads routing and enters FORWARD. -/
  | linkTraining (trained : BitVec 12) (config : IslandConfig)
  /-- BOOT_IMAGE_LOAD (R276): Firmware reads and verifies the boot manifest and images. -/
  | bootImageLoad (images : List Image)
  /-- B_DIE_RELEASE (R276): Firmware releases the B-die from reset and loads its firmware. -/
  | bDieRelease (images : List Image)
  /-- COMPUTE_DIE_RELEASE (R276): Firmware loads and releases the compute dies and the island enters FULL. -/
  | computeDieRelease (images : List Image)
  /-- ATTESTATION_REQUEST (R278): A nonce request returns a signed attestation report. -/
  | attestationRequest (nonce : BitVec 256)
  /-- BOOT_RESUME_COMMAND (R349): A management command resumes boot at step 5 after power-off or a trip. -/
  | bootResumeCommand
  /-- RECOVERY_IMAGE (R352): The ROM recovery responder accepts a replacement island firmware image. -/
  | recoveryImage (image : Image)
  /-- PORT_RESTORE_COMMAND (R343): A management command brings a retired port back. -/
  | portRestoreCommand (port : Nat)
  /-- CORE_UNRETIRE_COMMAND (R354): A management command ends a core's retirement. -/
  | coreUnretireCommand (core : Nat)
  /-- CORE_ERROR_WINDOW (R353): A core's corrected-error window ends and counts are compared with thresholds. -/
  | coreErrorWindow (core : Nat) (array : CoreArray) (count : Nat)
  /-- LINK_UP (R272): A link port whose link was down (not retired) comes up again, so packets for ids whose primary is that port leave by it once more. -/
  | linkUp (port : Nat)
  deriving DecidableEq, Repr

end Sys2Proof
end

