-- ==== Sys2Proof/Decode.lean ====
section
/-! DEFINITION. Decoding a word of code to its instruction, and encoding an instruction to its word, both written from
the formats of Layout 6.1, Layout 6.4 and Layout 6.6 and the opcode map of Table 6.8 (R132 to R144). -/

namespace Sys2Proof

/-- Why a word is no instruction (R145): its major opcode is reserved, or the major is assigned and the word has a
reserved fn or sub-field value, or a bit set in a field that must be zero. -/
inductive DecodeError where
  | reservedMajor (major : Nat)
  | reservedEncoding (major : Nat)
  deriving DecidableEq, Repr

/-! ## The fields of a word (Layout 6.1) -/

/-- Bits [31:25], the major opcode. -/
def major (w : W32) : BitVec 7 := w.extractLsb' 25 7
def fnR (w : W32) : BitVec 4 := w.extractLsb' 21 4
def dR (w : W32) : BitVec 7 := w.extractLsb' 14 7
def aR (w : W32) : BitVec 7 := w.extractLsb' 7 7
def bR (w : W32) : BitVec 7 := w.extractLsb' 0 7
def dI (w : W32) : BitVec 7 := w.extractLsb' 18 7
def aI (w : W32) : BitVec 7 := w.extractLsb' 11 7
def immI (w : W32) : BitVec 11 := w.extractLsb' 0 11
def immL (w : W32) : BitVec 18 := w.extractLsb' 0 18
def countP (w : W32) : BitVec 6 := w.extractLsb' 19 6
def dStepP (w : W32) : BitVec 3 := w.extractLsb' 16 3
def aStepP (w : W32) : BitVec 3 := w.extractLsb' 13 3
def bStepP (w : W32) : BitVec 3 := w.extractLsb' 10 3
def lowP (w : W32) : BitVec 10 := w.extractLsb' 0 10
def markerH (w : W32) : BitVec 4 := w.extractLsb' 28 4
def waitH (w : W32) : BitVec 12 := w.extractLsb' 16 12
def setAH (w : W32) : BitVec 4 := w.extractLsb' 12 4
def setBH (w : W32) : BitVec 4 := w.extractLsb' 8 4
def lenH (w : W32) : BitVec 4 := w.extractLsb' 4 4
def yieldH (w : W32) : BitVec 1 := w.extractLsb' 3 1
def lowH (w : W32) : BitVec 3 := w.extractLsb' 0 3

/-- A word in format R. -/
def packR (op : BitVec 7) (f : BitVec 4) (d a b : BitVec 7) : W32 := op ++ f ++ d ++ a ++ b

/-- A word in format I. -/
def packI (op : BitVec 7) (d a : BitVec 7) (i : BitVec 11) : W32 := op ++ d ++ a ++ i

/-- A word in format L or J. -/
def packL (op : BitVec 7) (d : BitVec 7) (i : BitVec 18) : W32 := op ++ d ++ i

/-- A REP word (Layout 6.6). -/
def packP (op : BitVec 7) (c : BitVec 6) (d a b : BitVec 3) (z : BitVec 10) : W32 := op ++ c ++ d ++ a ++ b ++ z

/-- A clause header (Layout 6.4). -/
def packH (w : BitVec 12) (a b l : BitVec 4) (y : BitVec 1) (z : BitVec 3) : W32 :=
  15#4 ++ w ++ a ++ b ++ l ++ y ++ z

/-! ## Decoding, one major opcode at a time (Table 6.8) -/

/-- A clause header: CLAUSE_HEADER. -/
def decodeHeader (w : W32) : Except DecodeError Instr :=
  if lowH w = 0#3 then .ok (.clauseHeader (waitH w) (setAH w) (setBH w) (lenH w) (yieldH w))
  else
    .error (.reservedEncoding (major w).toNat)

/-- Major 0x01: BRA. -/
def decodeMajor01 (w : W32) : Except DecodeError Instr :=
  if dI w = 0#7 then .ok (.bra (immL w))
  else
    .error (.reservedEncoding (major w).toNat)

/-- Major 0x02: BRP, BRNP. -/
def decodeMajor02 (w : W32) : Except DecodeError Instr :=
  if (dI w).extractLsb' 3 4 = 0#4 then .ok (.brp ((dI w).extractLsb' 0 3) (immL w))
  else
  if (dI w).extractLsb' 3 4 = 1#4 then .ok (.brnp ((dI w).extractLsb' 0 3) (immL w))
  else
    .error (.reservedEncoding (major w).toNat)

/-- Major 0x03: BRZ. -/
def decodeMajor03 (w : W32) : Except DecodeError Instr :=
  .ok (.brz (dI w) (immL w))

/-- Major 0x04: BRNZ. -/
def decodeMajor04 (w : W32) : Except DecodeError Instr :=
  .ok (.brnz (dI w) (immL w))

/-- Major 0x05: CALL. -/
def decodeMajor05 (w : W32) : Except DecodeError Instr :=
  if dI w = 0#7 then .ok (.call (immL w))
  else
    .error (.reservedEncoding (major w).toNat)

/-- Major 0x06: CALLI. -/
def decodeMajor06 (w : W32) : Except DecodeError Instr :=
  if fnR w = 0#4 ∧ dR w = 0#7 ∧ bR w = 0#7 then .ok (.calli (aR w))
  else
    .error (.reservedEncoding (major w).toNat)

/-- Major 0x07: RET. -/
def decodeMajor07 (w : W32) : Except DecodeError Instr :=
  if fnR w = 0#4 ∧ dR w = 0#7 ∧ aR w = 0#7 ∧ bR w = 0#7 then .ok (.ret)
  else
    .error (.reservedEncoding (major w).toNat)

/-- Major 0x08: JMPI. -/
def decodeMajor08 (w : W32) : Except DecodeError Instr :=
  if fnR w = 0#4 ∧ dR w = 0#7 ∧ bR w = 0#7 then .ok (.jmpi (aR w))
  else
    .error (.reservedEncoding (major w).toNat)

/-- Major 0x09: EXIT. -/
def decodeMajor09 (w : W32) : Except DecodeError Instr :=
  if fnR w = 0#4 ∧ dR w = 0#7 ∧ aR w = 0#7 ∧ bR w = 0#7 then .ok (.exit)
  else
    .error (.reservedEncoding (major w).toNat)

/-- Major 0x0A: REP. -/
def decodeMajor0A (w : W32) : Except DecodeError Instr :=
  if lowP w = 0#10 then .ok (.rep (countP w) (dStepP w) (aStepP w) (bStepP w))
  else
    .error (.reservedEncoding (major w).toNat)

/-- Major 0x0B: GRD. -/
def decodeMajor0B (w : W32) : Except DecodeError Instr :=
  if fnR w = 0#4 ∧ dR w = 0#7 ∧ aR w = 0#7 ∧ (bR w).extractLsb' 4 3 = 0#3 then .ok (.grd ((bR w).extractLsb' 3 1) ((bR w).extractLsb' 0 3))
  else
    .error (.reservedEncoding (major w).toNat)

/-- Major 0x0C: WBASE. -/
def decodeMajor0C (w : W32) : Except DecodeError Instr :=
  if dI w = 0#7 ∧ aI w = 0#7 then .ok (.wbase (immI w))
  else
    .error (.reservedEncoding (major w).toNat)

/-- Major 0x0D: JOIN, LEAVE, WAITM, MSET, MGET. -/
def decodeMajor0D (w : W32) : Except DecodeError Instr :=
  if fnR w = 0#4 ∧ dR w = 0#7 ∧ bR w = 0#7 then .ok (.join (aR w))
  else
  if fnR w = 1#4 ∧ dR w = 0#7 ∧ bR w = 0#7 then .ok (.leave (aR w))
  else
  if fnR w = 2#4 ∧ dR w = 0#7 ∧ bR w = 0#7 then .ok (.waitm (aR w))
  else
  if fnR w = 3#4 ∧ dR w = 0#7 then .ok (.mset (aR w) (bR w))
  else
  if fnR w = 4#4 ∧ bR w = 0#7 then .ok (.mget (dR w) (aR w))
  else
    .error (.reservedEncoding (major w).toNat)

/-- Major 0x0E: ANY, ALL, BALLOT, ELECT, MATCH, ACTIVE. -/
def decodeMajor0E (w : W32) : Except DecodeError Instr :=
  if fnR w = 0#4 ∧ bR w = 0#7 then .ok (.anyVote (dR w) (aR w))
  else
  if fnR w = 1#4 ∧ bR w = 0#7 then .ok (.allVote (dR w) (aR w))
  else
  if fnR w = 2#4 ∧ bR w = 0#7 then .ok (.ballot (dR w) (aR w))
  else
  if fnR w = 3#4 ∧ aR w = 0#7 ∧ bR w = 0#7 then .ok (.elect (dR w))
  else
  if fnR w = 4#4 ∧ bR w = 0#7 then .ok (.matchLanes (dR w) (aR w))
  else
  if fnR w = 5#4 ∧ aR w = 0#7 ∧ bR w = 0#7 then .ok (.active (dR w))
  else
    .error (.reservedEncoding (major w).toNat)

/-- Major 0x0F: REWARP. -/
def decodeMajor0F (w : W32) : Except DecodeError Instr :=
  if fnR w = 0#4 ∧ dR w = 0#7 then .ok (.rewarp (aR w) (bR w))
  else
    .error (.reservedEncoding (major w).toNat)

/-- Major 0x10: YIELD, BRK, TRAP, ERET, SRD, SWR, ICINV. -/
def decodeMajor10 (w : W32) : Except DecodeError Instr :=
  if fnR w = 0#4 ∧ dR w = 0#7 ∧ aR w = 0#7 ∧ bR w = 0#7 then .ok (.yield)
  else
  if fnR w = 1#4 ∧ dR w = 0#7 ∧ aR w = 0#7 then .ok (.brk (bR w))
  else
  if fnR w = 2#4 ∧ dR w = 0#7 ∧ bR w = 0#7 then .ok (.trap (aR w))
  else
  if fnR w = 3#4 ∧ dR w = 0#7 ∧ aR w = 0#7 ∧ bR w = 0#7 then .ok (.eret)
  else
  if fnR w = 4#4 then .ok (.srd (dR w) (aR w) (bR w))
  else
  if fnR w = 5#4 then .ok (.swr (dR w) (aR w) (bR w))
  else
  if fnR w = 6#4 ∧ dR w = 0#7 ∧ aR w = 0#7 ∧ bR w = 0#7 then .ok (.icinv)
  else
    .error (.reservedEncoding (major w).toNat)

/-- Major 0x11: CNTC, CNTI. -/
def decodeMajor11 (w : W32) : Except DecodeError Instr :=
  if fnR w = 0#4 ∧ aR w = 0#7 ∧ bR w = 0#7 then .ok (.cntc (dR w))
  else
  if fnR w = 1#4 ∧ aR w = 0#7 ∧ bR w = 0#7 then .ok (.cnti (dR w))
  else
    .error (.reservedEncoding (major w).toNat)

/-- Major 0x12: ADD. -/
def decodeMajor12 (w : W32) : Except DecodeError Instr :=
  .ok (.add ((fnR w).extractLsb' 3 1) ((fnR w).extractLsb' 2 1) ((fnR w).extractLsb' 0 2) (dR w) (aR w) (bR w))

/-- Major 0x13: SUB. -/
def decodeMajor13 (w : W32) : Except DecodeError Instr :=
  .ok (.sub ((fnR w).extractLsb' 3 1) ((fnR w).extractLsb' 2 1) ((fnR w).extractLsb' 0 2) (dR w) (aR w) (bR w))

/-- Major 0x14: ADDI. -/
def decodeMajor14 (w : W32) : Except DecodeError Instr :=
  .ok (.addi (dI w) (aI w) (immI w))

/-- Major 0x15: MUL. -/
def decodeMajor15 (w : W32) : Except DecodeError Instr :=
  .ok (.mul ((fnR w).extractLsb' 3 1) ((fnR w).extractLsb' 2 1) ((fnR w).extractLsb' 0 2) (dR w) (aR w) (bR w))

/-- Major 0x16: MAD. -/
def decodeMajor16 (w : W32) : Except DecodeError Instr :=
  if (fnR w).extractLsb' 2 2 = 0#2 then .ok (.mad ((fnR w).extractLsb' 0 2) (dR w) (aR w) (bR w))
  else
    .error (.reservedEncoding (major w).toNat)

/-- Major 0x17: MIN. -/
def decodeMajor17 (w : W32) : Except DecodeError Instr :=
  if (fnR w).extractLsb' 2 1 = 0#1 then .ok (.min ((fnR w).extractLsb' 3 1) ((fnR w).extractLsb' 0 2) (dR w) (aR w) (bR w))
  else
    .error (.reservedEncoding (major w).toNat)

/-- Major 0x18: MAX. -/
def decodeMajor18 (w : W32) : Except DecodeError Instr :=
  if (fnR w).extractLsb' 2 1 = 0#1 then .ok (.max ((fnR w).extractLsb' 3 1) ((fnR w).extractLsb' 0 2) (dR w) (aR w) (bR w))
  else
    .error (.reservedEncoding (major w).toNat)

/-- Major 0x19: ABS, NEG, NOT, POPC, CLZ, CTZ, BREV, BSWAP. -/
def decodeMajor19 (w : W32) : Except DecodeError Instr :=
  if fnR w = 0#4 ∧ (bR w).extractLsb' 2 5 = 0#5 then .ok (.abs (dR w) (aR w) ((bR w).extractLsb' 0 2))
  else
  if fnR w = 1#4 ∧ (bR w).extractLsb' 2 5 = 0#5 then .ok (.neg (dR w) (aR w) ((bR w).extractLsb' 0 2))
  else
  if fnR w = 2#4 ∧ (bR w).extractLsb' 2 5 = 0#5 then .ok (.not (dR w) (aR w) ((bR w).extractLsb' 0 2))
  else
  if fnR w = 3#4 ∧ (bR w).extractLsb' 2 5 = 0#5 then .ok (.popc (dR w) (aR w) ((bR w).extractLsb' 0 2))
  else
  if fnR w = 4#4 ∧ (bR w).extractLsb' 2 5 = 0#5 then .ok (.clz (dR w) (aR w) ((bR w).extractLsb' 0 2))
  else
  if fnR w = 5#4 ∧ (bR w).extractLsb' 2 5 = 0#5 then .ok (.ctz (dR w) (aR w) ((bR w).extractLsb' 0 2))
  else
  if fnR w = 6#4 ∧ (bR w).extractLsb' 2 5 = 0#5 then .ok (.brev (dR w) (aR w) ((bR w).extractLsb' 0 2))
  else
  if fnR w = 7#4 ∧ (bR w).extractLsb' 2 5 = 0#5 then .ok (.bswap (dR w) (aR w) ((bR w).extractLsb' 0 2))
  else
    .error (.reservedEncoding (major w).toNat)

/-- Major 0x1A: AND, OR, XOR, ANDN, ORN, XNOR. -/
def decodeMajor1A (w : W32) : Except DecodeError Instr :=
  if fnR w = 0#4 then .ok (.and (dR w) (aR w) (bR w))
  else
  if fnR w = 1#4 then .ok (.or (dR w) (aR w) (bR w))
  else
  if fnR w = 2#4 then .ok (.xor (dR w) (aR w) (bR w))
  else
  if fnR w = 3#4 then .ok (.andn (dR w) (aR w) (bR w))
  else
  if fnR w = 4#4 then .ok (.orn (dR w) (aR w) (bR w))
  else
  if fnR w = 5#4 then .ok (.xnor (dR w) (aR w) (bR w))
  else
    .error (.reservedEncoding (major w).toNat)

/-- Major 0x1B: ANDI. -/
def decodeMajor1B (w : W32) : Except DecodeError Instr :=
  .ok (.andi (dI w) (aI w) (immI w))

/-- Major 0x1C: ORI. -/
def decodeMajor1C (w : W32) : Except DecodeError Instr :=
  .ok (.ori (dI w) (aI w) (immI w))

/-- Major 0x1D: XORI. -/
def decodeMajor1D (w : W32) : Except DecodeError Instr :=
  .ok (.xori (dI w) (aI w) (immI w))

/-- Major 0x1E: SHL, SHR, SAR, ROL. -/
def decodeMajor1E (w : W32) : Except DecodeError Instr :=
  if (fnR w).extractLsb' 0 2 = 0#2 then .ok (.shl ((fnR w).extractLsb' 2 2) (dR w) (aR w) (bR w))
  else
  if (fnR w).extractLsb' 0 2 = 1#2 then .ok (.shr ((fnR w).extractLsb' 2 2) (dR w) (aR w) (bR w))
  else
  if (fnR w).extractLsb' 0 2 = 2#2 then .ok (.sar ((fnR w).extractLsb' 2 2) (dR w) (aR w) (bR w))
  else
  if (fnR w).extractLsb' 0 2 = 3#2 then .ok (.rol ((fnR w).extractLsb' 2 2) (dR w) (aR w) (bR w))
  else
    .error (.reservedEncoding (major w).toNat)

/-- Major 0x1F: SHLI, SHRI, SARI, ROLI. -/
def decodeMajor1F (w : W32) : Except DecodeError Instr :=
  if (immI w).extractLsb' 6 5 = 0#5 then .ok (.shli (dI w) (aI w) ((immI w).extractLsb' 0 6))
  else
  if (immI w).extractLsb' 6 5 = 8#5 then .ok (.shri (dI w) (aI w) ((immI w).extractLsb' 0 6))
  else
  if (immI w).extractLsb' 6 5 = 16#5 then .ok (.sari (dI w) (aI w) ((immI w).extractLsb' 0 6))
  else
  if (immI w).extractLsb' 6 5 = 24#5 then .ok (.roli (dI w) (aI w) ((immI w).extractLsb' 0 6))
  else
    .error (.reservedEncoding (major w).toNat)

/-- Major 0x20: BFX. -/
def decodeMajor20 (w : W32) : Except DecodeError Instr :=
  if (fnR w).extractLsb' 1 3 = 0#3 then .ok (.bfx ((fnR w).extractLsb' 0 1) (dR w) (aR w) (bR w))
  else
    .error (.reservedEncoding (major w).toNat)

/-- Major 0x21: BFI. -/
def decodeMajor21 (w : W32) : Except DecodeError Instr :=
  if fnR w = 0#4 then .ok (.bfi (dR w) (aR w) (bR w))
  else
    .error (.reservedEncoding (major w).toNat)

/-- Major 0x22: CMP. -/
def decodeMajor22 (w : W32) : Except DecodeError Instr :=
  .ok (.cmp ((fnR w).extractLsb' 3 1) ((fnR w).extractLsb' 0 3) (dR w) (aR w) (bR w))

/-- Major 0x23: CMPI. -/
def decodeMajor23 (w : W32) : Except DecodeError Instr :=
  .ok (.cmpi ((dI w).extractLsb' 3 4) ((dI w).extractLsb' 0 3) (aI w) (immI w))

/-- Major 0x24: SEL. -/
def decodeMajor24 (w : W32) : Except DecodeError Instr :=
  .ok (.sel ((fnR w).extractLsb' 3 1) ((fnR w).extractLsb' 0 3) (dR w) (aR w) (bR w))

/-- Major 0x25: MOV, PGET, PSET, PAND, POR, PXOR, PNOT. -/
def decodeMajor25 (w : W32) : Except DecodeError Instr :=
  if fnR w = 0#4 ∧ bR w = 0#7 then .ok (.mov (dR w) (aR w))
  else
  if fnR w = 1#4 ∧ aR w = 0#7 ∧ bR w = 0#7 then .ok (.pget (dR w))
  else
  if fnR w = 2#4 ∧ dR w = 0#7 ∧ bR w = 0#7 then .ok (.pset (aR w))
  else
  if fnR w = 3#4 then .ok (.pand (dR w) (aR w) (bR w))
  else
  if fnR w = 4#4 then .ok (.por (dR w) (aR w) (bR w))
  else
  if fnR w = 5#4 then .ok (.pxor (dR w) (aR w) (bR w))
  else
  if fnR w = 6#4 ∧ bR w = 0#7 then .ok (.pnot (dR w) (aR w))
  else
    .error (.reservedEncoding (major w).toNat)

/-- Major 0x26: MVI. -/
def decodeMajor26 (w : W32) : Except DecodeError Instr :=
  .ok (.mvi (dI w) (immL w))

/-- Major 0x27: MVH1. -/
def decodeMajor27 (w : W32) : Except DecodeError Instr :=
  .ok (.mvh1 (dI w) (immL w))

/-- Major 0x28: MVH2. -/
def decodeMajor28 (w : W32) : Except DecodeError Instr :=
  .ok (.mvh2 (dI w) (immL w))

/-- Major 0x29: MVH3. -/
def decodeMajor29 (w : W32) : Except DecodeError Instr :=
  if (immL w).extractLsb' 10 8 = 0#8 then .ok (.mvh3 (dI w) ((immL w).extractLsb' 0 10))
  else
    .error (.reservedEncoding (major w).toNat)

/-- Major 0x2A: LEA. -/
def decodeMajor2A (w : W32) : Except DecodeError Instr :=
  if (fnR w).extractLsb' 2 2 = 0#2 then .ok (.lea ((fnR w).extractLsb' 0 2) (dR w) (aR w) (bR w))
  else
    .error (.reservedEncoding (major w).toNat)

/-- Major 0x2B: PDOT2. -/
def decodeMajor2B (w : W32) : Except DecodeError Instr :=
  if (fnR w).extractLsb' 1 3 = 0#3 then .ok (.pdot2 ((fnR w).extractLsb' 0 1) (dR w) (aR w) (bR w))
  else
    .error (.reservedEncoding (major w).toNat)

/-- Major 0x2C: PSRR. -/
def decodeMajor2C (w : W32) : Except DecodeError Instr :=
  if (fnR w).extractLsb' 2 2 = 0#2 then .ok (.psrr ((fnR w).extractLsb' 0 2) (dR w) (aR w) (bR w))
  else
    .error (.reservedEncoding (major w).toNat)

/-- Major 0x2D: PNARROW. -/
def decodeMajor2D (w : W32) : Except DecodeError Instr :=
  if (fnR w).extractLsb' 3 1 = 0#1 then .ok (.pnarrow ((fnR w).extractLsb' 2 1) ((fnR w).extractLsb' 0 2) (dR w) (aR w) (bR w))
  else
    .error (.reservedEncoding (major w).toNat)

/-- Major 0x2E: PWIDEN. -/
def decodeMajor2E (w : W32) : Except DecodeError Instr :=
  if bR w = 0#7 then .ok (.pwiden ((fnR w).extractLsb' 3 1) ((fnR w).extractLsb' 2 1) ((fnR w).extractLsb' 0 2) (dR w) (aR w))
  else
    .error (.reservedEncoding (major w).toNat)

/-- Major 0x30: FADD. -/
def decodeMajor30 (w : W32) : Except DecodeError Instr :=
  .ok (.fadd ((fnR w).extractLsb' 2 2) ((fnR w).extractLsb' 0 2) (dR w) (aR w) (bR w))

/-- Major 0x31: FSUB. -/
def decodeMajor31 (w : W32) : Except DecodeError Instr :=
  .ok (.fsub ((fnR w).extractLsb' 2 2) ((fnR w).extractLsb' 0 2) (dR w) (aR w) (bR w))

/-- Major 0x32: FMUL. -/
def decodeMajor32 (w : W32) : Except DecodeError Instr :=
  .ok (.fmul ((fnR w).extractLsb' 2 2) ((fnR w).extractLsb' 0 2) (dR w) (aR w) (bR w))

/-- Major 0x33: FFMA. -/
def decodeMajor33 (w : W32) : Except DecodeError Instr :=
  .ok (.ffma ((fnR w).extractLsb' 2 2) ((fnR w).extractLsb' 0 2) (dR w) (aR w) (bR w))

/-- Major 0x34: FMIN, FMAX. -/
def decodeMajor34 (w : W32) : Except DecodeError Instr :=
  if (fnR w).extractLsb' 2 1 = 0#1 then .ok (.fmin ((fnR w).extractLsb' 3 1) ((fnR w).extractLsb' 0 2) (dR w) (aR w) (bR w))
  else
  if (fnR w).extractLsb' 2 1 = 1#1 then .ok (.fmax ((fnR w).extractLsb' 3 1) ((fnR w).extractLsb' 0 2) (dR w) (aR w) (bR w))
  else
    .error (.reservedEncoding (major w).toNat)

/-- Major 0x35: FABS, FNEG, FCPYS. -/
def decodeMajor35 (w : W32) : Except DecodeError Instr :=
  if (fnR w).extractLsb' 2 2 = 0#2 ∧ bR w = 0#7 then .ok (.fabs ((fnR w).extractLsb' 0 2) (dR w) (aR w))
  else
  if (fnR w).extractLsb' 2 2 = 1#2 ∧ bR w = 0#7 then .ok (.fneg ((fnR w).extractLsb' 0 2) (dR w) (aR w))
  else
  if (fnR w).extractLsb' 2 2 = 2#2 then .ok (.fcpys ((fnR w).extractLsb' 0 2) (dR w) (aR w) (bR w))
  else
    .error (.reservedEncoding (major w).toNat)

/-- Major 0x36: FCMP. -/
def decodeMajor36 (w : W32) : Except DecodeError Instr :=
  .ok (.fcmp ((fnR w).extractLsb' 2 2) ((fnR w).extractLsb' 0 2) (dR w) (aR w) (bR w))

/-- Major 0x37: FPCMP. -/
def decodeMajor37 (w : W32) : Except DecodeError Instr :=
  .ok (.fpcmp ((fnR w).extractLsb' 2 2) ((fnR w).extractLsb' 0 2) (dR w) (aR w) (bR w))

/-- Major 0x38: FCVT. -/
def decodeMajor38 (w : W32) : Except DecodeError Instr :=
  if (bR w).extractLsb' 5 2 = 0#2 then .ok (.fcvt (fnR w) (dR w) (aR w) ((bR w).extractLsb' 3 2) ((bR w).extractLsb' 0 3))
  else
    .error (.reservedEncoding (major w).toNat)

/-- Major 0x39: FRND. -/
def decodeMajor39 (w : W32) : Except DecodeError Instr :=
  if bR w = 0#7 then .ok (.frnd ((fnR w).extractLsb' 2 2) ((fnR w).extractLsb' 0 2) (dR w) (aR w))
  else
    .error (.reservedEncoding (major w).toNat)

/-- Major 0x3A: FTOI. -/
def decodeMajor3A (w : W32) : Except DecodeError Instr :=
  if (bR w).extractLsb' 1 6 = 0#6 then .ok (.ftoi ((fnR w).extractLsb' 2 2) ((fnR w).extractLsb' 0 2) (dR w) (aR w) ((bR w).extractLsb' 0 1))
  else
    .error (.reservedEncoding (major w).toNat)

/-- Major 0x3B: ITOF. -/
def decodeMajor3B (w : W32) : Except DecodeError Instr :=
  if (bR w).extractLsb' 1 6 = 0#6 then .ok (.itof ((fnR w).extractLsb' 2 2) ((fnR w).extractLsb' 0 2) (dR w) (aR w) ((bR w).extractLsb' 0 1))
  else
    .error (.reservedEncoding (major w).toNat)

/-- Major 0x3C: FRCP, FRSQ, FSQRT, FEX2, FLG2, FSIN, FCOS, FTNH. -/
def decodeMajor3C (w : W32) : Except DecodeError Instr :=
  if (fnR w).extractLsb' 0 3 = 0#3 ∧ bR w = 0#7 then .ok (.frcp ((fnR w).extractLsb' 3 1) (dR w) (aR w))
  else
  if (fnR w).extractLsb' 0 3 = 1#3 ∧ bR w = 0#7 then .ok (.frsq ((fnR w).extractLsb' 3 1) (dR w) (aR w))
  else
  if (fnR w).extractLsb' 0 3 = 2#3 ∧ bR w = 0#7 then .ok (.fsqrt ((fnR w).extractLsb' 3 1) (dR w) (aR w))
  else
  if fnR w = 3#4 ∧ bR w = 0#7 then .ok (.fex2 (dR w) (aR w))
  else
  if fnR w = 4#4 ∧ bR w = 0#7 then .ok (.flg2 (dR w) (aR w))
  else
  if fnR w = 5#4 ∧ bR w = 0#7 then .ok (.fsin (dR w) (aR w))
  else
  if fnR w = 6#4 ∧ bR w = 0#7 then .ok (.fcos (dR w) (aR w))
  else
  if fnR w = 7#4 ∧ bR w = 0#7 then .ok (.ftnh (dR w) (aR w))
  else
    .error (.reservedEncoding (major w).toNat)

/-- Major 0x3D: FSCL. -/
def decodeMajor3D (w : W32) : Except DecodeError Instr :=
  if (fnR w).extractLsb' 2 2 = 0#2 then .ok (.fscl ((fnR w).extractLsb' 0 2) (dR w) (aR w) (bR w))
  else
    .error (.reservedEncoding (major w).toNat)

/-- Major 0x3E: FCLS. -/
def decodeMajor3E (w : W32) : Except DecodeError Instr :=
  if (fnR w).extractLsb' 2 2 = 0#2 ∧ bR w = 0#7 then .ok (.fcls ((fnR w).extractLsb' 0 2) (dR w) (aR w))
  else
    .error (.reservedEncoding (major w).toNat)

/-- Major 0x40: SHFL. -/
def decodeMajor40 (w : W32) : Except DecodeError Instr :=
  if (fnR w).extractLsb' 2 2 = 0#2 then .ok (.shfl ((fnR w).extractLsb' 0 2) (dR w) (aR w) (bR w))
  else
    .error (.reservedEncoding (major w).toNat)

/-- Major 0x41: SLIDE. -/
def decodeMajor41 (w : W32) : Except DecodeError Instr :=
  if (fnR w).extractLsb' 3 1 = 0#1 then .ok (.slide ((fnR w).extractLsb' 1 2) ((fnR w).extractLsb' 0 1) (dR w) (aR w) (bR w))
  else
    .error (.reservedEncoding (major w).toNat)

/-- Major 0x42: BCST. -/
def decodeMajor42 (w : W32) : Except DecodeError Instr :=
  if (fnR w).extractLsb' 2 2 = 0#2 then .ok (.bcst ((fnR w).extractLsb' 0 2) (dR w) (aR w) (bR w))
  else
    .error (.reservedEncoding (major w).toNat)

/-- Major 0x43: LSCAN. -/
def decodeMajor43 (w : W32) : Except DecodeError Instr :=
  if (bR w).extractLsb' 2 5 = 0#5 then .ok (.lscan ((fnR w).extractLsb' 3 1) ((fnR w).extractLsb' 0 3) (dR w) (aR w) ((bR w).extractLsb' 0 2))
  else
    .error (.reservedEncoding (major w).toNat)

/-- Major 0x44: LSSCAN. -/
def decodeMajor44 (w : W32) : Except DecodeError Instr :=
  .ok (.lsscan ((fnR w).extractLsb' 3 1) ((fnR w).extractLsb' 0 3) (dR w) (aR w) (bR w))

/-- Major 0x45: LRED. -/
def decodeMajor45 (w : W32) : Except DecodeError Instr :=
  if (bR w).extractLsb' 2 5 = 0#5 then .ok (.lred ((fnR w).extractLsb' 3 1) ((fnR w).extractLsb' 0 3) (dR w) (aR w) ((bR w).extractLsb' 0 2))
  else
    .error (.reservedEncoding (major w).toNat)

/-- Major 0x46: ISECT. -/
def decodeMajor46 (w : W32) : Except DecodeError Instr :=
  if fnR w = 0#4 then .ok (.isect (dR w) (aR w) (bR w))
  else
    .error (.reservedEncoding (major w).toNat)

/-- Major 0x48: LDD. -/
def decodeMajor48 (w : W32) : Except DecodeError Instr :=
  .ok (.ldd (dI w) (aI w) (immI w))

/-- Major 0x49: LDW. -/
def decodeMajor49 (w : W32) : Except DecodeError Instr :=
  .ok (.ldw (dI w) (aI w) (immI w))

/-- Major 0x4A: LDH. -/
def decodeMajor4A (w : W32) : Except DecodeError Instr :=
  .ok (.ldh (dI w) (aI w) (immI w))

/-- Major 0x4B: LDB. -/
def decodeMajor4B (w : W32) : Except DecodeError Instr :=
  .ok (.ldb (dI w) (aI w) (immI w))

/-- Major 0x4C: LDX. -/
def decodeMajor4C (w : W32) : Except DecodeError Instr :=
  .ok (.ldx ((fnR w).extractLsb' 3 1) ((fnR w).extractLsb' 2 1) ((fnR w).extractLsb' 0 2) (dR w) (aR w) (bR w))

/-- Major 0x4D: STD. -/
def decodeMajor4D (w : W32) : Except DecodeError Instr :=
  .ok (.std (dI w) (aI w) (immI w))

/-- Major 0x4E: STW. -/
def decodeMajor4E (w : W32) : Except DecodeError Instr :=
  .ok (.stw (dI w) (aI w) (immI w))

/-- Major 0x4F: STH. -/
def decodeMajor4F (w : W32) : Except DecodeError Instr :=
  .ok (.sth (dI w) (aI w) (immI w))

/-- Major 0x50: STB. -/
def decodeMajor50 (w : W32) : Except DecodeError Instr :=
  .ok (.stb (dI w) (aI w) (immI w))

/-- Major 0x51: STX. -/
def decodeMajor51 (w : W32) : Except DecodeError Instr :=
  if (fnR w).extractLsb' 2 2 = 0#2 then .ok (.stx ((fnR w).extractLsb' 0 2) (dR w) (aR w) (bR w))
  else
    .error (.reservedEncoding (major w).toNat)

/-- Major 0x52: LDS. -/
def decodeMajor52 (w : W32) : Except DecodeError Instr :=
  if (fnR w).extractLsb' 3 1 = 0#1 then .ok (.lds ((fnR w).extractLsb' 2 1) ((fnR w).extractLsb' 0 2) (dR w) (aR w) (bR w))
  else
    .error (.reservedEncoding (major w).toNat)

/-- Major 0x53: STS. -/
def decodeMajor53 (w : W32) : Except DecodeError Instr :=
  if (fnR w).extractLsb' 2 2 = 0#2 then .ok (.sts ((fnR w).extractLsb' 0 2) (dR w) (aR w) (bR w))
  else
    .error (.reservedEncoding (major w).toNat)

/-- Major 0x54: PRFL1, PRFL2, DSCD. -/
def decodeMajor54 (w : W32) : Except DecodeError Instr :=
  if fnR w = 0#4 ∧ dR w = 0#7 then .ok (.prfl1 (aR w) (bR w))
  else
  if fnR w = 1#4 ∧ dR w = 0#7 then .ok (.prfl2 (aR w) (bR w))
  else
  if fnR w = 2#4 ∧ dR w = 0#7 then .ok (.dscd (aR w) (bR w))
  else
    .error (.reservedEncoding (major w).toNat)

/-- Major 0x55: ATOM. -/
def decodeMajor55 (w : W32) : Except DecodeError Instr :=
  .ok (.atom (fnR w) (dR w) (aR w) (bR w))

/-- Major 0x56: ATOMW. -/
def decodeMajor56 (w : W32) : Except DecodeError Instr :=
  .ok (.atomw (fnR w) (dR w) (aR w) (bR w))

/-- Major 0x57: ATRED. -/
def decodeMajor57 (w : W32) : Except DecodeError Instr :=
  if (dR w).extractLsb' 1 6 = 0#6 then .ok (.atred (fnR w) ((dR w).extractLsb' 0 1) (aR w) (bR w))
  else
    .error (.reservedEncoding (major w).toNat)

/-- Major 0x58: CAS. -/
def decodeMajor58 (w : W32) : Except DecodeError Instr :=
  if (fnR w).extractLsb' 1 3 = 0#3 then .ok (.cas ((fnR w).extractLsb' 0 1) (dR w) (aR w) (bR w))
  else
    .error (.reservedEncoding (major w).toNat)

/-- Major 0x59: FENCE. -/
def decodeMajor59 (w : W32) : Except DecodeError Instr :=
  if dR w = 0#7 ∧ aR w = 0#7 ∧ bR w = 0#7 then .ok (.fence ((fnR w).extractLsb' 2 2) ((fnR w).extractLsb' 0 2))
  else
    .error (.reservedEncoding (major w).toNat)

/-- Major 0x5A: WAITF. -/
def decodeMajor5A (w : W32) : Except DecodeError Instr :=
  if (fnR w).extractLsb' 2 2 = 0#2 then .ok (.waitf ((fnR w).extractLsb' 0 2) (dR w) (aR w) (bR w))
  else
    .error (.reservedEncoding (major w).toNat)

/-- Major 0x5B: BARS, BARA, BARW, BARI. -/
def decodeMajor5B (w : W32) : Except DecodeError Instr :=
  if dI w = 0#7 ∧ aI w = 0#7 ∧ (immI w).extractLsb' 10 1 = 0#1 then .ok (.bars ((immI w).extractLsb' 0 10))
  else
  if dI w = 1#7 ∧ aI w = 0#7 ∧ (immI w).extractLsb' 10 1 = 0#1 then .ok (.bara ((immI w).extractLsb' 0 10))
  else
  if dI w = 2#7 ∧ aI w = 0#7 ∧ (immI w).extractLsb' 10 1 = 0#1 then .ok (.barw ((immI w).extractLsb' 0 10))
  else
  if dI w = 3#7 ∧ (immI w).extractLsb' 10 1 = 0#1 then .ok (.bari (aI w) ((immI w).extractLsb' 0 10))
  else
    .error (.reservedEncoding (major w).toNat)

/-- Major 0x5C: GBAR. -/
def decodeMajor5C (w : W32) : Except DecodeError Instr :=
  if fnR w = 0#4 ∧ dR w = 0#7 ∧ aR w = 0#7 ∧ bR w = 0#7 then .ok (.gbar)
  else
    .error (.reservedEncoding (major w).toNat)

/-- Major 0x5D: TLWAIT. -/
def decodeMajor5D (w : W32) : Except DecodeError Instr :=
  if dR w = 0#7 ∧ bR w = 0#7 then .ok (.tlwait (fnR w) (aR w))
  else
    .error (.reservedEncoding (major w).toNat)

/-- Major 0x5E: TLRD. -/
def decodeMajor5E (w : W32) : Except DecodeError Instr :=
  if aR w = 0#7 ∧ bR w = 0#7 then .ok (.tlrd (fnR w) (dR w))
  else
    .error (.reservedEncoding (major w).toNat)

/-- Major 0x5F: STQ. -/
def decodeMajor5F (w : W32) : Except DecodeError Instr :=
  if (fnR w).extractLsb' 2 2 = 0#2 ∧ dR w = 0#7 ∧ bR w = 0#7 then .ok (.stq ((fnR w).extractLsb' 0 2) (aR w))
  else
    .error (.reservedEncoding (major w).toNat)

/-- Major 0x60: GO_COPY, GO_GATHER. -/
def decodeMajor60 (w : W32) : Except DecodeError Instr :=
  if fnR w = 0#4 ∧ aR w = 0#7 then .ok (.goCopy (dR w) (bR w))
  else
  if fnR w = 1#4 ∧ aR w = 0#7 then .ok (.goGather (dR w) (bR w))
  else
    .error (.reservedEncoding (major w).toNat)

/-- Major 0x61: TXB, TXC, TXA, TXS. -/
def decodeMajor61 (w : W32) : Except DecodeError Instr :=
  if fnR w = 0#4 ∧ dR w = 0#7 ∧ aR w = 0#7 ∧ bR w = 0#7 then .ok (.txb)
  else
  if fnR w = 1#4 ∧ aR w = 0#7 ∧ bR w = 0#7 then .ok (.txc (dR w))
  else
  if fnR w = 2#4 ∧ dR w = 0#7 ∧ bR w = 0#7 then .ok (.txa (aR w))
  else
  if fnR w = 3#4 ∧ aR w = 0#7 ∧ bR w = 0#7 then .ok (.txs (dR w))
  else
    .error (.reservedEncoding (major w).toNat)

/-- Major 0x62: MMA. -/
def decodeMajor62 (w : W32) : Except DecodeError Instr :=
  .ok (.mma ((fnR w).extractLsb' 3 1) ((fnR w).extractLsb' 2 1) ((fnR w).extractLsb' 1 1) ((fnR w).extractLsb' 0 1) (dR w) (aR w) (bR w))

/-- Major 0x63: ACCRD. -/
def decodeMajor63 (w : W32) : Except DecodeError Instr :=
  if (bR w).extractLsb' 2 5 = 0#5 then .ok (.accrd ((fnR w).extractLsb' 3 1) ((fnR w).extractLsb' 0 3) (dR w) (aR w) ((bR w).extractLsb' 0 2))
  else
    .error (.reservedEncoding (major w).toNat)

/-- Major 0x64: ACCWR. -/
def decodeMajor64 (w : W32) : Except DecodeError Instr :=
  if (bR w).extractLsb' 2 5 = 0#5 then .ok (.accwr ((fnR w).extractLsb' 3 1) ((fnR w).extractLsb' 0 3) (dR w) (aR w) ((bR w).extractLsb' 0 2))
  else
    .error (.reservedEncoding (major w).toNat)

/-- Major 0x65: ACCZ. -/
def decodeMajor65 (w : W32) : Except DecodeError Instr :=
  if (fnR w).extractLsb' 1 3 = 0#3 ∧ dR w = 0#7 then .ok (.accz ((fnR w).extractLsb' 0 1) (aR w) (bR w))
  else
    .error (.reservedEncoding (major w).toNat)

/-- Major 0x66: SPAWN, SPAWNR, TAIL. -/
def decodeMajor66 (w : W32) : Except DecodeError Instr :=
  if fnR w = 0#4 then .ok (.spawn (dR w) (aR w) (bR w))
  else
  if fnR w = 1#4 then .ok (.spawnr (dR w) (aR w) (bR w))
  else
  if fnR w = 2#4 ∧ bR w = 0#7 then .ok (.tail (dR w) (aR w))
  else
    .error (.reservedEncoding (major w).toNat)

/-- Major 0x67: CLAIM. -/
def decodeMajor67 (w : W32) : Except DecodeError Instr :=
  if (fnR w).extractLsb' 1 3 = 0#3 ∧ bR w = 0#7 then .ok (.claim ((fnR w).extractLsb' 0 1) (dR w) (aR w))
  else
    .error (.reservedEncoding (major w).toNat)

/-- Major 0x68: FULFIL, RELINQ, FORGET. -/
def decodeMajor68 (w : W32) : Except DecodeError Instr :=
  if fnR w = 0#4 ∧ dR w = 0#7 then .ok (.fulfil (aR w) (bR w))
  else
  if fnR w = 1#4 ∧ dR w = 0#7 ∧ bR w = 0#7 then .ok (.relinq (aR w))
  else
  if fnR w = 2#4 ∧ dR w = 0#7 ∧ bR w = 0#7 then .ok (.forget (aR w))
  else
    .error (.reservedEncoding (major w).toNat)

/-- Major 0x69: EDIT. -/
def decodeMajor69 (w : W32) : Except DecodeError Instr :=
  .ok (.edit (dI w) (aI w) (immI w))

/-- Major 0x6A: PROP. -/
def decodeMajor6A (w : W32) : Except DecodeError Instr :=
  if (fnR w).extractLsb' 1 3 = 0#3 then .ok (.propagate ((fnR w).extractLsb' 0 1) (dR w) (aR w) (bR w))
  else
    .error (.reservedEncoding (major w).toNat)

/-- Major 0x6B: TRCON, TRCOFF, TDIG, TSTAT. -/
def decodeMajor6B (w : W32) : Except DecodeError Instr :=
  if fnR w = 0#4 ∧ dR w = 0#7 ∧ aR w = 0#7 ∧ bR w = 0#7 then .ok (.trcon)
  else
  if fnR w = 1#4 ∧ dR w = 0#7 ∧ aR w = 0#7 ∧ bR w = 0#7 then .ok (.trcoff)
  else
  if fnR w = 2#4 ∧ aR w = 0#7 ∧ bR w = 0#7 then .ok (.tdig (dR w))
  else
  if fnR w = 3#4 ∧ bR w = 0#7 then .ok (.tstat (dR w) (aR w))
  else
    .error (.reservedEncoding (major w).toNat)

/-- Major 0x6C: RBGIVE, RBTAKE. -/
def decodeMajor6C (w : W32) : Except DecodeError Instr :=
  if fnR w = 0#4 ∧ (bR w).extractLsb' 3 4 = 0#4 then .ok (.rbgive (dR w) (aR w) ((bR w).extractLsb' 0 3))
  else
  if fnR w = 1#4 ∧ (bR w).extractLsb' 3 4 = 0#4 then .ok (.rbtake (dR w) (aR w) ((bR w).extractLsb' 0 3))
  else
    .error (.reservedEncoding (major w).toNat)

/-- The instruction that a word of a major opcode encodes (Table 6.8). -/
def decodeMajor (op : Nat) (w : W32) : Except DecodeError Instr :=
  match op with
  | 1 => decodeMajor01 w
  | 2 => decodeMajor02 w
  | 3 => decodeMajor03 w
  | 4 => decodeMajor04 w
  | 5 => decodeMajor05 w
  | 6 => decodeMajor06 w
  | 7 => decodeMajor07 w
  | 8 => decodeMajor08 w
  | 9 => decodeMajor09 w
  | 10 => decodeMajor0A w
  | 11 => decodeMajor0B w
  | 12 => decodeMajor0C w
  | 13 => decodeMajor0D w
  | 14 => decodeMajor0E w
  | 15 => decodeMajor0F w
  | 16 => decodeMajor10 w
  | 17 => decodeMajor11 w
  | 18 => decodeMajor12 w
  | 19 => decodeMajor13 w
  | 20 => decodeMajor14 w
  | 21 => decodeMajor15 w
  | 22 => decodeMajor16 w
  | 23 => decodeMajor17 w
  | 24 => decodeMajor18 w
  | 25 => decodeMajor19 w
  | 26 => decodeMajor1A w
  | 27 => decodeMajor1B w
  | 28 => decodeMajor1C w
  | 29 => decodeMajor1D w
  | 30 => decodeMajor1E w
  | 31 => decodeMajor1F w
  | 32 => decodeMajor20 w
  | 33 => decodeMajor21 w
  | 34 => decodeMajor22 w
  | 35 => decodeMajor23 w
  | 36 => decodeMajor24 w
  | 37 => decodeMajor25 w
  | 38 => decodeMajor26 w
  | 39 => decodeMajor27 w
  | 40 => decodeMajor28 w
  | 41 => decodeMajor29 w
  | 42 => decodeMajor2A w
  | 43 => decodeMajor2B w
  | 44 => decodeMajor2C w
  | 45 => decodeMajor2D w
  | 46 => decodeMajor2E w
  | 48 => decodeMajor30 w
  | 49 => decodeMajor31 w
  | 50 => decodeMajor32 w
  | 51 => decodeMajor33 w
  | 52 => decodeMajor34 w
  | 53 => decodeMajor35 w
  | 54 => decodeMajor36 w
  | 55 => decodeMajor37 w
  | 56 => decodeMajor38 w
  | 57 => decodeMajor39 w
  | 58 => decodeMajor3A w
  | 59 => decodeMajor3B w
  | 60 => decodeMajor3C w
  | 61 => decodeMajor3D w
  | 62 => decodeMajor3E w
  | 64 => decodeMajor40 w
  | 65 => decodeMajor41 w
  | 66 => decodeMajor42 w
  | 67 => decodeMajor43 w
  | 68 => decodeMajor44 w
  | 69 => decodeMajor45 w
  | 70 => decodeMajor46 w
  | 72 => decodeMajor48 w
  | 73 => decodeMajor49 w
  | 74 => decodeMajor4A w
  | 75 => decodeMajor4B w
  | 76 => decodeMajor4C w
  | 77 => decodeMajor4D w
  | 78 => decodeMajor4E w
  | 79 => decodeMajor4F w
  | 80 => decodeMajor50 w
  | 81 => decodeMajor51 w
  | 82 => decodeMajor52 w
  | 83 => decodeMajor53 w
  | 84 => decodeMajor54 w
  | 85 => decodeMajor55 w
  | 86 => decodeMajor56 w
  | 87 => decodeMajor57 w
  | 88 => decodeMajor58 w
  | 89 => decodeMajor59 w
  | 90 => decodeMajor5A w
  | 91 => decodeMajor5B w
  | 92 => decodeMajor5C w
  | 93 => decodeMajor5D w
  | 94 => decodeMajor5E w
  | 95 => decodeMajor5F w
  | 96 => decodeMajor60 w
  | 97 => decodeMajor61 w
  | 98 => decodeMajor62 w
  | 99 => decodeMajor63 w
  | 100 => decodeMajor64 w
  | 101 => decodeMajor65 w
  | 102 => decodeMajor66 w
  | 103 => decodeMajor67 w
  | 104 => decodeMajor68 w
  | 105 => decodeMajor69 w
  | 106 => decodeMajor6A w
  | 107 => decodeMajor6B w
  | 108 => decodeMajor6C w
  | n => .error (.reservedMajor n)

/-- The instruction that a word encodes, or why it encodes none (R132, R145). -/
def decode (w : W32) : Except DecodeError Instr :=
  if markerH w = 15#4 then decodeHeader w else decodeMajor (major w).toNat w

/-- The word of code in four bytes, little-endian (R132); any other number of bytes is no word. -/
def wordOfBytes : List Byte → Option W32
  | [b0, b1, b2, b3] => some (b3 ++ b2 ++ b1 ++ b0)
  | _ => none

/-- The four bytes that hold a word, the lowest address first (R132). -/
def bytesOfWord (w : W32) : List Byte :=
  [w.extractLsb' 0 8, w.extractLsb' 8 8, w.extractLsb' 16 8, w.extractLsb' 24 8]

/-- Decoding from bytes: the instruction of the first word and the bytes after it. -/
def decodeBytes : List Byte → Except DecodeError (Instr × List Byte)
  | b0 :: b1 :: b2 :: b3 :: rest => (decode (b3 ++ b2 ++ b1 ++ b0)).map (fun i => (i, rest))
  | _ => .error (.reservedEncoding 0)

/-- The instruction that the decoder reads from a word numbered as the opcode table numbers it. -/
def decodeTableWord (nbits w : Nat) : Option Instr :=
  match decodeBytes (bytesOfWord (BitVec.ofNat 32 (w % 2 ^ nbits))) with
  | .ok (i, _) => some i
  | .error _ => none

/-! ## Encoding -/

/-- The word of an encoded instruction; the rows of the table that are steps of the device have none. -/
def encode : Instr → Option W32
  | .clauseHeader w a b l y => some (packH w a b l y 0#3)
  | .bra o => some (packL 0x1#7 0#7 o)
  | .brp p o => some (packL 0x2#7 (0#4 ++ p) o)
  | .brnp p o => some (packL 0x2#7 (1#4 ++ p) o)
  | .brz a o => some (packL 0x3#7 a o)
  | .brnz a o => some (packL 0x4#7 a o)
  | .call o => some (packL 0x5#7 0#7 o)
  | .calli a => some (packR 0x6#7 0#4 0#7 a 0#7)
  | .ret => some (packR 0x7#7 0#4 0#7 0#7 0#7)
  | .jmpi a => some (packR 0x8#7 0#4 0#7 a 0#7)
  | .exit => some (packR 0x9#7 0#4 0#7 0#7 0#7)
  | .rep c d a b => some (packP 0xa#7 c d a b 0#10)
  | .grd n p => some (packR 0xb#7 0#4 0#7 0#7 (0#3 ++ n ++ p))
  | .wbase i => some (packI 0xc#7 0#7 0#7 i)
  | .join m => some (packR 0xd#7 0#4 0#7 m 0#7)
  | .leave m => some (packR 0xd#7 1#4 0#7 m 0#7)
  | .waitm m => some (packR 0xd#7 2#4 0#7 m 0#7)
  | .mset m b => some (packR 0xd#7 3#4 0#7 m b)
  | .mget d m => some (packR 0xd#7 4#4 d m 0#7)
  | .anyVote p a => some (packR 0xe#7 0#4 p a 0#7)
  | .allVote p a => some (packR 0xe#7 1#4 p a 0#7)
  | .ballot d a => some (packR 0xe#7 2#4 d a 0#7)
  | .elect p => some (packR 0xe#7 3#4 p 0#7 0#7)
  | .matchLanes d a => some (packR 0xe#7 4#4 d a 0#7)
  | .active d => some (packR 0xe#7 5#4 d 0#7 0#7)
  | .rewarp a n => some (packR 0xf#7 0#4 0#7 a n)
  | .yield => some (packR 0x10#7 0#4 0#7 0#7 0#7)
  | .brk c => some (packR 0x10#7 1#4 0#7 0#7 c)
  | .trap a => some (packR 0x10#7 2#4 0#7 a 0#7)
  | .eret => some (packR 0x10#7 3#4 0#7 0#7 0#7)
  | .srd d i j => some (packR 0x10#7 4#4 d i j)
  | .swr s i j => some (packR 0x10#7 5#4 s i j)
  | .icinv => some (packR 0x10#7 6#4 0#7 0#7 0#7)
  | .cntc d => some (packR 0x11#7 0#4 d 0#7 0#7)
  | .cnti d => some (packR 0x11#7 1#4 d 0#7 0#7)
  | .add u s e d a b => some (packR 0x12#7 (u ++ s ++ e) d a b)
  | .sub u s e d a b => some (packR 0x13#7 (u ++ s ++ e) d a b)
  | .addi d a i => some (packI 0x14#7 d a i)
  | .mul u h e d a b => some (packR 0x15#7 (u ++ h ++ e) d a b)
  | .mad e d a b => some (packR 0x16#7 (0#2 ++ e) d a b)
  | .min u e d a b => some (packR 0x17#7 (u ++ 0#1 ++ e) d a b)
  | .max u e d a b => some (packR 0x18#7 (u ++ 0#1 ++ e) d a b)
  | .abs d a e => some (packR 0x19#7 0#4 d a (0#5 ++ e))
  | .neg d a e => some (packR 0x19#7 1#4 d a (0#5 ++ e))
  | .not d a e => some (packR 0x19#7 2#4 d a (0#5 ++ e))
  | .popc d a e => some (packR 0x19#7 3#4 d a (0#5 ++ e))
  | .clz d a e => some (packR 0x19#7 4#4 d a (0#5 ++ e))
  | .ctz d a e => some (packR 0x19#7 5#4 d a (0#5 ++ e))
  | .brev d a e => some (packR 0x19#7 6#4 d a (0#5 ++ e))
  | .bswap d a e => some (packR 0x19#7 7#4 d a (0#5 ++ e))
  | .and d a b => some (packR 0x1a#7 0#4 d a b)
  | .or d a b => some (packR 0x1a#7 1#4 d a b)
  | .xor d a b => some (packR 0x1a#7 2#4 d a b)
  | .andn d a b => some (packR 0x1a#7 3#4 d a b)
  | .orn d a b => some (packR 0x1a#7 4#4 d a b)
  | .xnor d a b => some (packR 0x1a#7 5#4 d a b)
  | .andi d a i => some (packI 0x1b#7 d a i)
  | .ori d a i => some (packI 0x1c#7 d a i)
  | .xori d a i => some (packI 0x1d#7 d a i)
  | .shl e d a b => some (packR 0x1e#7 (e ++ 0#2) d a b)
  | .shr e d a b => some (packR 0x1e#7 (e ++ 1#2) d a b)
  | .sar e d a b => some (packR 0x1e#7 (e ++ 2#2) d a b)
  | .rol e d a b => some (packR 0x1e#7 (e ++ 3#2) d a b)
  | .shli d a n => some (packI 0x1f#7 d a (0#5 ++ n))
  | .shri d a n => some (packI 0x1f#7 d a (8#5 ++ n))
  | .sari d a n => some (packI 0x1f#7 d a (16#5 ++ n))
  | .roli d a n => some (packI 0x1f#7 d a (24#5 ++ n))
  | .bfx s d a b => some (packR 0x20#7 (0#3 ++ s) d a b)
  | .bfi d a b => some (packR 0x21#7 0#4 d a b)
  | .cmp w c p a b => some (packR 0x22#7 (w ++ c) p a b)
  | .cmpi c p a i => some (packI 0x23#7 (c ++ p) a i)
  | .sel n p d a b => some (packR 0x24#7 (n ++ p) d a b)
  | .mov d a => some (packR 0x25#7 0#4 d a 0#7)
  | .pget d => some (packR 0x25#7 1#4 d 0#7 0#7)
  | .pset a => some (packR 0x25#7 2#4 0#7 a 0#7)
  | .pand d a b => some (packR 0x25#7 3#4 d a b)
  | .por d a b => some (packR 0x25#7 4#4 d a b)
  | .pxor d a b => some (packR 0x25#7 5#4 d a b)
  | .pnot d a => some (packR 0x25#7 6#4 d a 0#7)
  | .mvi d i => some (packL 0x26#7 d i)
  | .mvh1 d i => some (packL 0x27#7 d i)
  | .mvh2 d i => some (packL 0x28#7 d i)
  | .mvh3 d i => some (packL 0x29#7 d (0#8 ++ i))
  | .lea s d a b => some (packR 0x2a#7 (0#2 ++ s) d a b)
  | .pdot2 u d a b => some (packR 0x2b#7 (0#3 ++ u) d a b)
  | .psrr e d a b => some (packR 0x2c#7 (0#2 ++ e) d a b)
  | .pnarrow u e d a b => some (packR 0x2d#7 (0#1 ++ u ++ e) d a b)
  | .pwiden x h e d a => some (packR 0x2e#7 (x ++ h ++ e) d a 0#7)
  | .fadd r t d a b => some (packR 0x30#7 (r ++ t) d a b)
  | .fsub r t d a b => some (packR 0x31#7 (r ++ t) d a b)
  | .fmul r t d a b => some (packR 0x32#7 (r ++ t) d a b)
  | .ffma r t d a b => some (packR 0x33#7 (r ++ t) d a b)
  | .fmin n t d a b => some (packR 0x34#7 (n ++ 0#1 ++ t) d a b)
  | .fmax n t d a b => some (packR 0x34#7 (n ++ 1#1 ++ t) d a b)
  | .fabs t d a => some (packR 0x35#7 (0#2 ++ t) d a 0#7)
  | .fneg t d a => some (packR 0x35#7 (1#2 ++ t) d a 0#7)
  | .fcpys t d a b => some (packR 0x35#7 (2#2 ++ t) d a b)
  | .fcmp c t p a b => some (packR 0x36#7 (c ++ t) p a b)
  | .fpcmp c t m a b => some (packR 0x37#7 (c ++ t) m a b)
  | .fcvt c d a r s => some (packR 0x38#7 c d a (0#2 ++ r ++ s))
  | .frnd r t d a => some (packR 0x39#7 (r ++ t) d a 0#7)
  | .ftoi r t d a u => some (packR 0x3a#7 (r ++ t) d a (0#6 ++ u))
  | .itof r t d a u => some (packR 0x3b#7 (r ++ t) d a (0#6 ++ u))
  | .frcp f d a => some (packR 0x3c#7 (f ++ 0#3) d a 0#7)
  | .frsq f d a => some (packR 0x3c#7 (f ++ 1#3) d a 0#7)
  | .fsqrt f d a => some (packR 0x3c#7 (f ++ 2#3) d a 0#7)
  | .fex2 d a => some (packR 0x3c#7 3#4 d a 0#7)
  | .flg2 d a => some (packR 0x3c#7 4#4 d a 0#7)
  | .fsin d a => some (packR 0x3c#7 5#4 d a 0#7)
  | .fcos d a => some (packR 0x3c#7 6#4 d a 0#7)
  | .ftnh d a => some (packR 0x3c#7 7#4 d a 0#7)
  | .fscl t d a b => some (packR 0x3d#7 (0#2 ++ t) d a b)
  | .fcls t d a => some (packR 0x3e#7 (0#2 ++ t) d a 0#7)
  | .shfl e d a b => some (packR 0x40#7 (0#2 ++ e) d a b)
  | .slide e v d a b => some (packR 0x41#7 (0#1 ++ e ++ v) d a b)
  | .bcst e d a b => some (packR 0x42#7 (0#2 ++ e) d a b)
  | .lscan i o d a e => some (packR 0x43#7 (i ++ o) d a (0#5 ++ e))
  | .lsscan i o d a b => some (packR 0x44#7 (i ++ o) d a b)
  | .lred i o d a e => some (packR 0x45#7 (i ++ o) d a (0#5 ++ e))
  | .isect d a b => some (packR 0x46#7 0#4 d a b)
  | .ldd d a i => some (packI 0x48#7 d a i)
  | .ldw d a i => some (packI 0x49#7 d a i)
  | .ldh d a i => some (packI 0x4a#7 d a i)
  | .ldb d a i => some (packI 0x4b#7 d a i)
  | .ldx t s e d a b => some (packR 0x4c#7 (t ++ s ++ e) d a b)
  | .std d a i => some (packI 0x4d#7 d a i)
  | .stw d a i => some (packI 0x4e#7 d a i)
  | .sth d a i => some (packI 0x4f#7 d a i)
  | .stb d a i => some (packI 0x50#7 d a i)
  | .stx e d a b => some (packR 0x51#7 (0#2 ++ e) d a b)
  | .lds s e d a b => some (packR 0x52#7 (0#1 ++ s ++ e) d a b)
  | .sts e d a b => some (packR 0x53#7 (0#2 ++ e) d a b)
  | .prfl1 a b => some (packR 0x54#7 0#4 0#7 a b)
  | .prfl2 a b => some (packR 0x54#7 1#4 0#7 a b)
  | .dscd a b => some (packR 0x54#7 2#4 0#7 a b)
  | .atom o d a b => some (packR 0x55#7 o d a b)
  | .atomw o d a b => some (packR 0x56#7 o d a b)
  | .atred o z a b => some (packR 0x57#7 o (0#6 ++ z) a b)
  | .cas w d a b => some (packR 0x58#7 (0#3 ++ w) d a b)
  | .fence s k => some (packR 0x59#7 (s ++ k) 0#7 0#7 0#7)
  | .waitf c d a b => some (packR 0x5a#7 (0#2 ++ c) d a b)
  | .bars i => some (packI 0x5b#7 0#7 0#7 (0#1 ++ i))
  | .bara i => some (packI 0x5b#7 1#7 0#7 (0#1 ++ i))
  | .barw i => some (packI 0x5b#7 2#7 0#7 (0#1 ++ i))
  | .bari a i => some (packI 0x5b#7 3#7 a (0#1 ++ i))
  | .gbar => some (packR 0x5c#7 0#4 0#7 0#7 0#7)
  | .tlwait c a => some (packR 0x5d#7 c 0#7 a 0#7)
  | .tlrd c d => some (packR 0x5e#7 c d 0#7 0#7)
  | .stq q a => some (packR 0x5f#7 (0#2 ++ q) 0#7 a 0#7)
  | .goCopy d c => some (packR 0x60#7 0#4 d 0#7 c)
  | .goGather d c => some (packR 0x60#7 1#4 d 0#7 c)
  | .txb => some (packR 0x61#7 0#4 0#7 0#7 0#7)
  | .txc d => some (packR 0x61#7 1#4 d 0#7 0#7)
  | .txa a => some (packR 0x61#7 2#4 0#7 a 0#7)
  | .txs d => some (packR 0x61#7 3#4 d 0#7 0#7)
  | .mma o p s u t a b => some (packR 0x62#7 (o ++ p ++ s ++ u) t a b)
  | .accrd f k d t y => some (packR 0x63#7 (f ++ k) d t (0#5 ++ y))
  | .accwr f k t a y => some (packR 0x64#7 (f ++ k) t a (0#5 ++ y))
  | .accz f t n => some (packR 0x65#7 (0#3 ++ f) 0#7 t n)
  | .spawn d a b => some (packR 0x66#7 0#4 d a b)
  | .spawnr d a b => some (packR 0x66#7 1#4 d a b)
  | .tail d a => some (packR 0x66#7 2#4 d a 0#7)
  | .claim n d a => some (packR 0x67#7 (0#3 ++ n) d a 0#7)
  | .fulfil a b => some (packR 0x68#7 0#4 0#7 a b)
  | .relinq a => some (packR 0x68#7 1#4 0#7 a 0#7)
  | .forget a => some (packR 0x68#7 2#4 0#7 a 0#7)
  | .edit d a i => some (packI 0x69#7 d a i)
  | .propagate y d a b => some (packR 0x6a#7 (0#3 ++ y) d a b)
  | .trcon => some (packR 0x6b#7 0#4 0#7 0#7 0#7)
  | .trcoff => some (packR 0x6b#7 1#4 0#7 0#7 0#7)
  | .tdig d => some (packR 0x6b#7 2#4 d 0#7 0#7)
  | .tstat d a => some (packR 0x6b#7 3#4 d a 0#7)
  | .rbgive k a n => some (packR 0x6c#7 0#4 k a (0#4 ++ n))
  | .rbtake d k n => some (packR 0x6c#7 1#4 d k (0#4 ++ n))
  | .gangVote _ _ => none
  | .regroup _ => none
  | .loadComplete _ => none
  | .atomicComplete _ => none
  | .storeAcknowledge .. => none
  | .waitfObservation _ _ _ => none
  | .claimResultDelivery _ => none
  | .txcComplete _ => none
  | .spawnComplete _ => none
  | .spawnrDeparture _ => none
  | .mmaComplete _ _ => none
  | .accrdComplete _ => none
  | .engineCommandStart _ => none
  | .copyCommandComplete _ => none
  | .gatherCommandComplete _ => none
  | .launchDispatch _ => none
  | .teamAdmission _ => none
  | .zeroingComplete _ => none
  | .taskEnd _ => none
  | .reckonerStartTask _ => none
  | .detGrant _ => none
  | .killDrainComplete _ => none
  | .preemptDrainComplete _ => none
  | .teamRestore _ => none
  | .tableWalkComplete _ => none
  | .faultRecordPost => none
  | .invalComplete _ => none
  | .auditReplay _ => none
  | .auditReplayEnd _ => none
  | .l2Scrub _ _ => none
  | .storageError _ _ => none
  | .ctxset _ _ _ _ _ _ _ _ => none
  | .qcfg _ _ _ _ _ _ => none
  | .qdestroy _ => none
  | .inval _ _ _ => none
  | .resolve _ _ => none
  | .aperture _ _ _ => none
  | .trrel _ => none
  | .budget _ _ => none
  | .backing _ _ => none
  | .preempt _ _ _ _ => none
  | .fqset _ _ _ => none
  | .mcqset _ _ _ => none
  | .resume _ => none
  | .audit _ _ _ => none
  | .qtailWrite _ _ _ => none
  | .qstatWrite _ _ => none
  | .edwinWrite _ _ _ => none
  | .mcheadWrite _ => none
  | .registerWrite _ _ _ => none
  | .hostMemoryWrite _ _ => none
  | .hostMemoryRead _ _ => none
  | .packetForward _ _ => none
  | .taskPacketArrival _ => none
  | .remoteRequestArrival _ => none
  | .responseArrival _ => none
  | .acknowledgementArrival _ => none
  | .negativeAckArrival _ => none
  | .linkFlitError _ _ => none
  | .linkErrorWindow _ _ => none
  | .linkPortDown _ => none
  | .islandRailGood => none
  | .islandRailLost => none
  | .islandOnlyReset => none
  | .computeOnlyReset => none
  | .computePowerOff => none
  | .regulatorTrip _ => none
  | .islandDrainComplete => none
  | .islandReturnFull => none
  | .islandUnavailable => none
  | .rootOfTrustCheck _ => none
  | .islandFirmwareLoad _ => none
  | .linkTraining _ _ => none
  | .bootImageLoad _ => none
  | .bDieRelease _ => none
  | .computeDieRelease _ => none
  | .attestationRequest _ => none
  | .bootResumeCommand => none
  | .recoveryImage _ => none
  | .portRestoreCommand _ => none
  | .coreUnretireCommand _ => none
  | .coreErrorWindow _ _ _ => none
  | .linkUp _ => none

end Sys2Proof
end

