-- ==== Sys2Proof/Machine/Bits.lean ====
section
/-! DEFINITION. Bit fields, elements of registers, integers of e bits, bytes in memory order, and the two hash helpers
of R80. -/

namespace Sys2Proof.Machine

/-! ## Fields and integers -/

/-- The n bits of v from bit lo upward. -/
def field (v lo n : Nat) : Nat := (v >>> lo) % 2 ^ n

/-- Replace the n bits of v from bit lo upward by x. -/
def setField (v lo n x : Nat) : Nat := v % 2 ^ lo + 2 ^ lo * (x % 2 ^ n) + 2 ^ (lo + n) * (v >>> (lo + n))

/-- SignExtend of R80: the two's complement value of the low n bits of v. -/
def signExtend (v n : Nat) : Int := if v.testBit (n - 1) then (v % 2 ^ n : Nat) - (2 ^ n : Nat) else (v % 2 ^ n : Nat)

/-- The low n bits of an integer, as they are stored in an n-bit element (R151). -/
def wrap (x : Int) (n : Nat) : Nat := (x % (2 ^ n : Nat)).toNat

/-- An integer as it is stored in a 64-bit register. -/
def toW64 (x : Int) : W64 := BitVec.ofInt 64 x

/-- SatS of R80: the clamped value, and whether it was clamped. -/
def satS (x : Int) (n : Nat) : Int × Bool :=
  if x > (2 ^ (n - 1) : Nat) - 1 then ((2 ^ (n - 1) : Nat) - 1, true)
  else if x < -((2 ^ (n - 1) : Nat) : Int) then (-((2 ^ (n - 1) : Nat) : Int), true)
  else (x, false)

/-- SatU of R80: the clamped value, and whether it was clamped. -/
def satU (x : Int) (n : Nat) : Int × Bool :=
  if x > (2 ^ n : Nat) - 1 then ((2 ^ n : Nat) - 1, true)
  else if x < 0 then (0, true)
  else (x, false)

/-! ## Elements (R61) -/

/-- The element width that an esize field names: 8, 16, 32 or 64 bits. -/
def width (esize : BitVec 2) : Nat := 8 <<< esize.toNat

/-- Elem of R80. -/
def elem (r : W64) (e j : Nat) : Nat := field r.toNat (e * j) e

/-- The elements of a register, element 0 first. -/
def elems (r : W64) (e : Nat) : List Nat := (List.range (64 / e)).map (elem r e)

/-- A number made of e-bit elements, element 0 first. -/
def packNat (e : Nat) : List Nat → Nat
  | [] => 0
  | x :: xs => x % 2 ^ e + 2 ^ e * packNat e xs

/-- A register made of e-bit elements, element 0 first. -/
def pack (e : Nat) (xs : List Nat) : W64 := BitVec.ofNat 64 (packNat e xs)

/-- SetElem of R80. -/
def setElem (r : W64) (e j v : Nat) : W64 := BitVec.ofNat 64 (setField r.toNat (e * j) e v)

/-- The number of 1 bits among the low n bits of v. -/
def popCount (v : Nat) : Nat → Nat
  | 0 => 0
  | n + 1 => popCount v n + (if v.testBit n then 1 else 0)

/-- How many 0 bits stand above the highest 1 bit of an n-bit v; n when v is 0. -/
def leadingZeros (v : Nat) : Nat → Nat
  | 0 => 0
  | n + 1 => if v.testBit n then 0 else 1 + leadingZeros v n

/-- The n bits of v in reverse order. -/
def reverseBits (v : Nat) : Nat → Nat
  | 0 => 0
  | n + 1 => 2 * reverseBits v n + (if v.testBit n then 1 else 0)

/-- How many 0 bits stand below the lowest 1 bit of an n-bit v; n when v is 0. -/
def trailingZeros (v n : Nat) : Nat := leadingZeros (reverseBits v n) n

/-! ## Bytes (R81: little-endian) -/

/-- The low n bytes of v, lowest address first. -/
def bytesOfNat : Nat → Nat → List Byte
  | 0, _ => []
  | n + 1, v => BitVec.ofNat 8 v :: bytesOfNat n (v / 256)

/-- The number whose bytes stand in memory order. -/
def natOfBytes : List Byte → Nat
  | [] => 0
  | b :: bs => b.toNat + 256 * natOfBytes bs

/-- The bytes of v in reverse order, n of them. -/
def reverseBytes (v n : Nat) : Nat := natOfBytes (bytesOfNat n v).reverse

/-! ## Lane sets -/

/-- The lanes of a mask, lowest first. -/
def lanesOf (m : W32) : List Nat := (List.range 32).filter fun l => m.getLsbD l

/-- The mask of a list of lanes. -/
def maskOf (ls : List Nat) : W32 := BitVec.ofNat 32 (ls.foldl (fun m l => m ||| (1 <<< l)) 0)

/-- The mask with one lane. -/
def laneBit (l : Nat) : W32 := BitVec.ofNat 32 (1 <<< l)

/-! ## Hashes of R80 -/

/-- Mix of R80. -/
def mix (addr : W64) (val : W64) (mask : BitVec 8) : W64 :=
  let w := packNat 8 ((List.range 8).map fun i => if mask.getLsbD i then field val.toNat (8 * i) 8 else 0)
  let x := BitVec.ofNat 64 (field addr.toNat 3 53) * 0xA24BAED4963EE407#64
  let x := x ^^^ BitVec.ofNat 64 w ^^^ (mask.setWidth 64 <<< 56)
  let x := x ^^^ (x >>> 31)
  let x := x * 0x9FB21C651E98DF25#64
  x ^^^ (x >>> 29)

/-- DetHash of R80. -/
def detHash (seed ord : W64) : W64 :=
  let x := seed + ord * 0x9FB21C651E98DF25#64
  let x := x ^^^ (x >>> 30)
  let x := x * 0x8F3D61A5C2E4B97B#64
  x ^^^ (x >>> 27)

/-! ## Lists -/

/-- The least element of a list by a comparison, if there is one. -/
def leastBy {α : Type} (lt : α → α → Bool) : List α → Option α
  | [] => none
  | x :: xs =>
    match leastBy lt xs with
    | none => some x
    | some y => if lt y x then some y else some x

/-- Insert into a sorted list. -/
def insertBy {α : Type} (lt : α → α → Bool) (x : α) : List α → List α
  | [] => [x]
  | y :: ys => if lt y x then y :: insertBy lt x ys else x :: y :: ys

/-- Sort a list, keeping equal elements in their order. -/
def sortBy {α : Type} (lt : α → α → Bool) : List α → List α
  | [] => []
  | x :: xs => insertBy lt x (sortBy lt xs)

/-- The value at a key of an association list. -/
def lookupD {α : Type} (l : List (Nat × α)) (k : Nat) (d : α) : α :=
  match l.find? fun e => e.1 == k with
  | some e => e.2
  | none => d

/-- Set the value at a key of an association list. -/
def insertAt {α : Type} (l : List (Nat × α)) (k : Nat) (v : α) : List (Nat × α) :=
  match l with
  | [] => [(k, v)]
  | e :: es => if e.1 == k then (k, v) :: es else e :: insertAt es k v

end Sys2Proof.Machine
end

