-- ==== Sys2Proof/Machine/Float.lean ====
section
/-! DEFINITION. The number formats of the machine (R66 to R76): decoding, exact arithmetic, one rounding, the flags,
the M8 format and the conversions to integers. -/

namespace Sys2Proof.Machine

/-- A floating-point format of Table 3.12. E4M3 has no infinities, and its largest exponent field holds numbers. -/
structure FloatFmt where
  expBits : Nat
  fracBits : Nat
  bias : Nat
  hasInf : Bool
  deriving DecidableEq, Repr

def f64 : FloatFmt := { expBits := 11, fracBits := 52, bias := 1023, hasInf := true }
def f32 : FloatFmt := { expBits := 8, fracBits := 23, bias := 127, hasInf := true }
def f16 : FloatFmt := { expBits := 5, fracBits := 10, bias := 15, hasInf := true }
def bf16 : FloatFmt := { expBits := 8, fracBits := 7, bias := 127, hasInf := true }
def e4m3 : FloatFmt := { expBits := 4, fracBits := 3, bias := 7, hasInf := false }
def e5m2 : FloatFmt := { expBits := 5, fracBits := 2, bias := 15, hasInf := true }

/-- The format that a type field names (Table 6.8). -/
def typeFmt (t : BitVec 2) : FloatFmt :=
  match t with
  | 0#2 => f64
  | 1#2 => f32
  | 2#2 => f16
  | _ => bf16

/-- The width in bits of a format. -/
def FloatFmt.width (f : FloatFmt) : Nat := 1 + f.expBits + f.fracBits

/-- A decoded value: NaN (signalling or quiet), an infinity, or (−1)^neg × m × 2^e, zero when m is 0. -/
inductive Fp where
  | nan (signalling : Bool)
  | inf (neg : Bool)
  | fin (neg : Bool) (m : Nat) (e : Int)
  deriving DecidableEq, Repr

/-- Floating-point flags, laid out as FPFLAGS (Table 3.7). -/
abbrev Flags := BitVec 5

def flagNv : Flags := 1#5
def flagDz : Flags := 2#5
def flagOf : Flags := 4#5
def flagUf : Flags := 8#5
def flagNx : Flags := 16#5

/-- A flag that is set when a condition holds. -/
def flagIf (c : Bool) (f : Flags) : Flags := if c then f else 0#5

/-- The bits that an operation delivers, its flags, and whether it sets SATF. -/
structure FpResult where
  bits : Nat
  flags : Flags
  sat : Bool
  deriving DecidableEq, Repr

/-! ## Bit patterns -/

/-- The sign bit of a format, in place. -/
def FloatFmt.signBit (f : FloatFmt) (neg : Bool) : Nat := if neg then 2 ^ (f.expBits + f.fracBits) else 0

/-- The magnitude pattern of the largest finite value. -/
def FloatFmt.maxBits (f : FloatFmt) : Nat :=
  if f.hasInf then (2 ^ f.expBits - 1) * 2 ^ f.fracBits - 1 else 2 ^ (f.expBits + f.fracBits) - 2

/-- The canonical NaN of a format (Table 3.12). -/
def FloatFmt.nanBits (f : FloatFmt) : Nat :=
  if f.hasInf then (2 ^ f.expBits - 1) * 2 ^ f.fracBits + 2 ^ (f.fracBits - 1) else 2 ^ (f.expBits + f.fracBits) - 1

/-- An infinity's pattern. -/
def FloatFmt.infBits (f : FloatFmt) (neg : Bool) : Nat := f.signBit neg + (2 ^ f.expBits - 1) * 2 ^ f.fracBits

/-- The exponent of the smallest normal magnitude. -/
def FloatFmt.emin (f : FloatFmt) : Int := 1 - f.bias

/-- Decode of R80 for the formats of Table 3.12 (R66, R67). -/
def FloatFmt.decode (f : FloatFmt) (b : Nat) : Fp :=
  let frac := field b 0 f.fracBits
  let ex := field b f.fracBits f.expBits
  let neg := b.testBit (f.expBits + f.fracBits)
  if f.hasInf && ex == 2 ^ f.expBits - 1 then
    if frac == 0 then .inf neg else .nan (!frac.testBit (f.fracBits - 1))
  else if !f.hasInf && ex == 2 ^ f.expBits - 1 && frac == 2 ^ f.fracBits - 1 then .nan false
  else if ex == 0 then .fin neg frac (f.emin - f.fracBits)
  else .fin neg (2 ^ f.fracBits + frac) ((ex : Int) - f.bias - f.fracBits)

/-! ## Rounding (R74, R75) -/

/-- The rounding modes of R74. -/
inductive Rnd where
  | rne
  | rtz
  | rdn
  | rup
  deriving DecidableEq, Repr

/-- The mode that a two-bit rounding field names. -/
def rndOf (r : BitVec 2) : Rnd :=
  match r with
  | 0#2 => .rne
  | 1#2 => .rtz
  | 2#2 => .rdn
  | _ => .rup

/-- Drop the low bits of a magnitude, rounding: the quotient, and whether anything was lost. -/
def roundShift (mode : Rnd) (neg : Bool) (m shift : Nat) : Nat × Bool :=
  let k := m >>> shift
  let r := m % 2 ^ shift
  let up :=
    match mode with
    | .rne => 2 * r > 2 ^ shift || (2 * r == 2 ^ shift && shift != 0 && k.testBit 0)
    | .rtz => false
    | .rdn => neg && r != 0
    | .rup => !neg && r != 0
  (if up then k + 1 else k, r != 0)

/-- Round m × 2^e to a multiple of 2^q: the multiple, and whether it is inexact. -/
def roundTo (mode : Rnd) (neg : Bool) (m : Nat) (e q : Int) : Nat × Bool :=
  if q ≤ e then (m <<< (e - q).toNat, false) else roundShift mode neg m (q - e).toNat

/-- Whether an overflow under a mode gives an infinity (Table 3.18). -/
def overflowsToInf (mode : Rnd) (neg : Bool) : Bool :=
  match mode with
  | .rne => true
  | .rtz => false
  | .rdn => neg
  | .rup => !neg

/-- The result of an overflow (Table 3.18, the E4M3 and the saturate rules of R74). -/
def FloatFmt.overflow (f : FloatFmt) (mode : Rnd) (neg sat : Bool) : FpResult :=
  let bits :=
    if sat then f.signBit neg + f.maxBits
    else if overflowsToInf mode neg then (if f.hasInf then f.infBits neg else f.nanBits)
    else f.signBit neg + f.maxBits
  { bits, flags := flagOf ||| flagNx, sat }

/-- The magnitude pattern of k × 2^q, where q is the format's quantum for it; it may exceed the largest finite one. -/
def FloatFmt.assemble (f : FloatFmt) (k : Nat) (q : Int) : Nat :=
  if k < 2 ^ f.fracBits then k
  else
    let l := k.log2
    (q + l + f.bias).toNat * 2 ^ f.fracBits + ((k >>> (l - f.fracBits)) - 2 ^ f.fracBits)

/-- One rounding of the exact nonzero value (−1)^neg × m × 2^e (R74, R75). -/
def FloatFmt.round (f : FloatFmt) (mode : Rnd) (sat neg : Bool) (m : Nat) (e : Int) : FpResult :=
  let top := (m.log2 : Int) + e
  let qFree := top - f.fracBits
  let q := if qFree < f.emin - f.fracBits then f.emin - f.fracBits else qFree
  let free := roundTo mode neg m e qFree
  let (k, inexact) := roundTo mode neg m e q
  let mag := f.assemble k q
  if mag > f.maxBits then f.overflow mode neg sat
  else
    let tiny := decide (qFree + (free.1.log2 : Int) < f.emin)
    { bits := f.signBit neg + mag, flags := flagIf inexact flagNx ||| flagIf (tiny && inexact) flagUf, sat := false }

/-- A NaN result; nv when an operand was signalling or the operation invalid. -/
def FloatFmt.nan (f : FloatFmt) (nv : Bool) : FpResult := { bits := f.nanBits, flags := flagIf nv flagNv, sat := false }

/-- RoundTo of R80 for a floating-point target. -/
def FloatFmt.ofFp (f : FloatFmt) (x : Fp) (mode : Rnd) (sat : Bool) : FpResult :=
  match x with
  | .nan s => f.nan s
  | .inf neg =>
    if f.hasInf && !sat then { bits := f.infBits neg, flags := 0#5, sat := false }
    else { bits := if sat then f.signBit neg + f.maxBits else f.nanBits, flags := flagOf ||| flagNx, sat }
  | .fin neg m e => if m == 0 then { bits := f.signBit neg, flags := 0#5, sat := false } else f.round mode sat neg m e

/-! ## Exact arithmetic -/

/-- The sign of a value (R80). -/
def Fp.neg : Fp → Bool
  | .nan _ => false
  | .inf n => n
  | .fin n _ _ => n

def Fp.isNan : Fp → Bool
  | .nan _ => true
  | _ => false

def Fp.isSignalling : Fp → Bool
  | .nan s => s
  | _ => false

def Fp.isInf : Fp → Bool
  | .inf _ => true
  | _ => false

def Fp.isZero : Fp → Bool
  | .fin _ m _ => m == 0
  | _ => false

/-- The value with its sign inverted. -/
def Fp.negate : Fp → Fp
  | .nan s => .nan s
  | .inf n => .inf (!n)
  | .fin n m e => .fin (!n) m e

/-- A finite value as a multiple of 2^q, where q is no greater than its exponent. -/
def Fp.scaled (x : Fp) (q : Int) : Int :=
  match x with
  | .fin n m e => let v : Int := (m <<< (e - q).toNat : Nat); if n then -v else v
  | _ => 0

/-- The exponent of a finite value. -/
def Fp.exponent : Fp → Int
  | .fin _ _ e => e
  | _ => 0

/-- An integer times 2^e as a value; zero is +0. -/
def Fp.ofInt (v : Int) (e : Int) : Fp := .fin (decide (v < 0)) v.natAbs e

/-- The exact sum of two finite values, as an integer and an exponent. -/
def sumExact (x y : Fp) : Int × Int :=
  let q := if x.exponent ≤ y.exponent then x.exponent else y.exponent
  (x.scaled q + y.scaled q, q)

/-- Addition (R182, R183). -/
def FloatFmt.add (f : FloatFmt) (mode : Rnd) (x y : Fp) : FpResult :=
  if x.isNan || y.isNan then f.nan (x.isSignalling || y.isSignalling)
  else if x.isInf && y.isInf then
    if x.neg == y.neg then f.ofFp x mode false else f.nan true
  else if x.isInf then f.ofFp x mode false
  else if y.isInf then f.ofFp y mode false
  else
    let (v, q) := sumExact x y
    if v == 0 then
      let neg := if x.isZero && y.isZero && x.neg == y.neg then x.neg else mode == .rdn
      f.ofFp (.fin neg 0 0) mode false
    else f.ofFp (Fp.ofInt v q) mode false

/-- The exact product, or none where it is invalid (0 × ∞). NaN operands do not reach it. -/
def mulExact (x y : Fp) : Option Fp :=
  let neg := x.neg != y.neg
  match x, y with
  | .fin _ m1 e1, .fin _ m2 e2 => some (.fin neg (m1 * m2) (e1 + e2))
  | _, _ => if x.isZero || y.isZero then none else some (.inf neg)

/-- Multiplication (R182, R183). -/
def FloatFmt.mul (f : FloatFmt) (mode : Rnd) (x y : Fp) : FpResult :=
  if x.isNan || y.isNan then f.nan (x.isSignalling || y.isSignalling)
  else
    match mulExact x y with
    | none => f.nan true
    | some p => f.ofFp p mode false

/-- Fused multiply-add x × y + z (R182, R183). R279 calls x × y − fl(x × y) exact and flagless from 2^−126 on, but it can
lie below 2^−149, where no F32 value is: it is then rounded, with uf and nx, as R182 says (DESIGN CHOICE, log 31). -/
def FloatFmt.fma (f : FloatFmt) (mode : Rnd) (x y z : Fp) : FpResult :=
  if x.isNan || y.isNan then f.nan (x.isSignalling || y.isSignalling || z.isSignalling)
  else
    match mulExact x y with
    | none => f.nan true
    | some p => f.add mode p z

/-- x < y for values that are not NaN, where −0 and +0 are equal. -/
def Fp.lt (x y : Fp) : Bool :=
  match x, y with
  | .inf true, .inf true => false
  | .inf true, _ => true
  | _, .inf true => false
  | .inf false, _ => false
  | _, .inf false => true
  | _, _ => let q := if x.exponent ≤ y.exponent then x.exponent else y.exponent; x.scaled q < y.scaled q

/-- x = y for values that are not NaN. -/
def Fp.eq (x y : Fp) : Bool := !x.lt y && !y.lt x

/-- x < y with −0 below +0 (R184). -/
def Fp.ltSigned (x y : Fp) : Bool := x.lt y || (x.isZero && y.isZero && x.neg && !y.neg)

/-! ## Integer targets and sources (R76) -/

/-- Round a value to an n-bit integer: the value, and the flags. -/
def toInteger (signed : Bool) (n : Nat) (mode : Rnd) (x : Fp) : Int × Flags :=
  let lo : Int := if signed then -((2 ^ (n - 1) : Nat) : Int) else 0
  let hi : Int := if signed then (2 ^ (n - 1) : Nat) - 1 else (2 ^ n : Nat) - 1
  match x with
  | .nan _ => (0, flagNv)
  | .inf neg => (if neg then lo else hi, flagNv)
  | .fin neg m e =>
    let (k, inexact) := if e ≥ (n : Int) + 1 && m != 0 then (2 ^ (n + 1), true) else roundTo mode neg m e 0
    let v : Int := if neg then -(k : Int) else k
    if v < lo then (lo, flagNv) else if v > hi then (hi, flagNv) else (v, flagIf inexact flagNx)

/-- FRND of R191: the integral value that a mode selects. -/
def FloatFmt.integral (f : FloatFmt) (mode : Rnd) (x : Fp) : FpResult :=
  match x with
  | .nan s => f.nan s
  | .inf neg => { bits := f.infBits neg, flags := 0#5, sat := false }
  | .fin neg m e =>
    let (k, _) := if e ≥ 0 then (m, false) else roundTo mode neg m e 0
    let r := f.ofFp (.fin neg k (if e ≥ 0 then e else 0)) .rtz false
    { bits := r.bits, flags := 0#5, sat := false }

/-- x × 2^n with one rounding by RNE (R196). An n beyond ±100,000 acts as ±100,000, where every finite value has
overflowed or underflowed. -/
def FloatFmt.scale (f : FloatFmt) (x : Fp) (n : Int) : FpResult :=
  match x with
  | .fin neg m e => f.ofFp (.fin neg m (e + max (-100000) (min 100000 n))) .rne false
  | _ => f.ofFp x .rne false

/-- The class bit of R197 (Table 8.7). -/
def FloatFmt.classify (f : FloatFmt) (b : Nat) : Nat :=
  match f.decode b with
  | .nan s => if s then 0 else 1
  | .inf neg => if neg then 2 else 9
  | .fin neg m _ =>
    if m == 0 then (if neg then 5 else 6)
    else if m < 2 ^ f.fracBits then (if neg then 4 else 7)
    else (if neg then 3 else 8)

/-! ## M8 (R70, R71) -/

/-- The magnitude of an M8 code, in units of 2^−12 (R70, Table 3.15). -/
def m8Magnitude (c : Nat) : Nat :=
  if c == 0 then 0
  else if c == 127 then 2 ^ 24
  else
    let ones := c.testBit 6
    let run := if ones then leadingZeros (127 - c) 7 else leadingZeros c 7
    let q := 6 - run
    let rest := c % 2 ^ q
    let e := if q == 0 then 0 else rest >>> (q - 1)
    let frac := if q == 0 then 0 else rest % 2 ^ (q - 1)
    let regime : Int := if ones then (run : Int) - 1 else -(run : Int)
    let fb := q - 1
    let sh := (2 * regime + e + 12 - fb).toNat
    (2 ^ fb + frac) <<< sh

/-- Decode of an M8 byte. -/
def m8Decode (b : Nat) : Fp :=
  let c := b % 128
  if c == 0 then (if b.testBit 7 then .nan false else .fin false 0 0) else .fin (b.testBit 7) (m8Magnitude c) (-12)

/-- The code whose magnitude is nearest m × 2^e, ties to the even code, counting up from a code. -/
def m8Search (m : Nat) (e : Int) : Nat → Nat → Nat
  | 0, c => c
  | fuel + 1, c =>
    -- twice the value against the sum of two adjacent magnitudes, in units of 2^−12 × 2^min(e+12, 0)
    let sh := (e + 13).toNat
    let down := (-(e + 13)).toNat
    let v := m <<< sh
    let mid := (m8Magnitude c + m8Magnitude (c + 1)) <<< down
    if v < mid || (v == mid && c % 2 == 0) then c else m8Search m e fuel (c + 1)

/-- RoundToM8 of R71. -/
def m8Round (x : Fp) : FpResult :=
  let top := { bits := 127, flags := flagOf ||| flagNx, sat := true : FpResult }
  match x with
  | .nan s => { bits := 128, flags := flagIf s flagNv, sat := false }
  | .inf neg => { top with bits := if neg then 255 else 127 }
  | .fin neg m e =>
    let above := m != 0 && ((m.log2 : Int) + e > 12 || (m.log2 : Int) + e == 12 && m != 2 ^ m.log2)
    if above then { top with bits := if neg then 255 else 127 }
    else
      let c := if m == 0 || (m.log2 : Int) + e < -14 then 0 else m8Search m e 127 0
      let exact := x.eq (.fin neg (m8Magnitude c) (-12))
      { bits := if c == 0 then 0 else c + (if neg then 128 else 0), flags := flagIf (!exact) flagNx, sat := false }

/-! ## The formats of a slot (R72) -/

/-- The width in bits of a slot format's elements (Table 3.17). -/
def slotWidth (code : Nat) : Nat :=
  match code with
  | 0 => 64
  | 1 | 8 => 32
  | 2 | 3 | 7 => 16
  | _ => 8

/-- Whether a slot format is an integer format (R80). -/
def slotInteger (code : Nat) : Bool := code == 5 || code == 6 || code == 7 || code == 8

/-- The floating-point format of a slot code that names one of Table 3.12. -/
def slotFmt (code : Nat) : FloatFmt :=
  match code with
  | 0 => f64
  | 1 => f32
  | 2 => f16
  | 3 => bf16
  | 9 => e4m3
  | _ => e5m2

/-- The integer value of an element in an integer slot format. -/
def slotInt (code : Nat) (b : Nat) : Int :=
  if code == 6 then (b % 256 : Nat) else signExtend b (slotWidth code)

/-- Decode of R80 for a slot format. -/
def slotDecode (code : Nat) (b : Nat) : Fp :=
  if slotInteger code then Fp.ofInt (slotInt code b) 0
  else if code == 4 then m8Decode b
  else (slotFmt code).decode b

/-- RoundTo of R80 for a slot format, from a floating-point or exact source. -/
def slotRound (code : Nat) (x : Fp) (mode : Rnd) (sat : Bool) : FpResult :=
  if slotInteger code then
    let (v, fl) := toInteger (code != 6) (slotWidth code) mode x
    { bits := wrap v (slotWidth code), flags := fl, sat := false }
  else if code == 4 then m8Round x
  else (slotFmt code).ofFp x mode sat

/-- A conversion of a wider integer to an integer slot format (R76). -/
def slotNarrow (code : Nat) (v : Int) (sat : Bool) : FpResult :=
  let n := slotWidth code
  let (c, s) := if code == 6 then satU v n else satS v n
  if sat then { bits := wrap c n, flags := 0#5, sat := s } else { bits := wrap v n, flags := 0#5, sat := false }

/-- The E8 factor of a scale byte (R73): an exponent of 2, or none for NaN. -/
def e8Factor (b : Nat) : Option Int := if b == 255 then none else some ((b : Int) - 127)

end Sys2Proof.Machine
end

