-- ==== Sys2Proof/Machine/State.lean ====
section
/-! DEFINITION. The state of the package as plain data: memory, cores, teams, gangs and threads, launches, tasks,
traces and claim entries, the host interface and the router island. INVENTORY.md lists each field with its rule. -/

namespace Sys2Proof.Machine

/-! ## Memory -/

/-- A memory: the bytes that differ from what an unlisted address reads as, by rising address. `era` 0 is the memory
of a first power-on or of a space the device zeroes; a later era is what a compute reset leaves (R349). -/
structure Memory where
  era : Nat
  cells : List Host.Cell
  deriving DecidableEq, Repr

/-- One 64-byte sector of the home L2 slice (R88, R327): which bytes its write mask covers, its poison bit, and the
bytes written since it was poisoned. -/
structure L2Sector where
  sector : Nat
  mask : BitVec 64
  poisoned : Bool
  cover : BitVec 64
  deriving DecidableEq, Repr

/-! ## Threads (R63 to R65) -/

/-- Where a result goes: discarded (the zero operand), a physical window register, or a y register (R59, R60). -/
inductive Dest where
  | discard
  | x (phys : Nat)
  | y (n : Nat)
  deriving DecidableEq, Repr

/-- Why a thread is blocked (R25). A WAITF keeps its word's address, for R328; `released` is a WAITM whose release waits for the members' stores (R91). A REWARP
keeps where it stood, for R311. -/
inductive Blocked where
  | none
  | waitm (mask : Nat)
  | released (members : W32)
  | barrier (id episode : Nat)
  | gbar (episode : Nat)
  | waitf (cond : BitVec 2) (va : W64) (pa : Nat) (operand : W64) (dest : Dest) (ready : Bool) (pc : W64)
  | tlwait (ctx : Nat) (count : W64)
  | claim (op : Nat)
  | rewarp (key : BitVec 16) (count : Nat) (pc : W64) (word : Nat) (header : W64) (lanes : W32)
  | fault (id : Nat)
  | regBlock (slot : Nat) (give : Bool)
  | propagate (request : Nat)
  | writer (ctx granule : Nat)
  deriving DecidableEq, Repr

/-- A body word at which a thread goes on, and the header of its clause (R50, R301, R315). -/
structure Resume where
  word : W64
  header : W64
  deriving DecidableEq, Repr

/-- The state of one thread (Tables 2.10, 3.2 and 3.3). -/
structure Thread where
  pc : W64
  x : List W64
  y : List W64
  p : BitVec 8
  repState : W64
  /-- what REPSTATE becomes once the wait of the repetition that has blocked the thread ends (R141) -/
  repNext : Option W64
  winBase : Nat
  satf : Bool
  fp : BitVec 5
  retDepth : Nat
  privBase : W64
  trapPc : W64
  trapCause : W64
  trapInfo : W64
  trapVec : W64
  trapDepth : Bool
  resumeHeader : W64
  recording : Bool
  cnti : Nat
  exited : Bool
  blocked : Blocked
  /-- the wait that the thread reaches when its clause retires (R160, R249) -/
  atRetire : Blocked
  /-- such a wait of a clause that a trap has interrupted -/
  trapWait : Blocked
  resume : Option Resume
  /-- the first prefix of a word whose prefixes have been counted (R53) -/
  prefixDone : Option W64
  /-- the same for a word of a trap handler -/
  prefixDoneHandler : Option W64
  /-- for each barrier the episode of the latest arrival (R217) -/
  arrivals : List (Nat × Nat)
  gbarArrival : Option Nat
  /-- a FENCE REL or AR at device or system scope is in force (R89) -/
  relHold : Bool
  /-- loads, stores and atomics issued so far (R87) -/
  memSeq : Nat
  /-- claim names for which the thread has obtained DONE (R112) -/
  claimsDone : List (BitVec 128)
  /-- the stores of the core's path below this name come before the thread's later accesses: those that barrier
  arrivals it has waited for, or its own FENCE AR, have released (R89, R95) -/
  seen : Nat
  /-- the stores below this name come before what the thread makes visible after a release of any scope (R89, R95) -/
  relStore : Nat
  /-- the same for its reads, by their place among its accesses (R89) -/
  relRead : Nat
  deriving DecidableEq, Repr

/-! ## Paths and gangs -/

/-- A REP in progress on a path (R141). -/
structure RepRun where
  count : Nat
  dStep : Nat
  aStep : Nat
  bStep : Nat
  done : Nat
  deriving DecidableEq, Repr

/-- The operation that a synchronising word performs for one lane (R54), with its operands as read at issue. -/
inductive SyncAct where
  | atomic (op : Nat) (size : Nat) (va : W64) (pa : Nat) (operand : W64) (dest : Dest)
  | cas (size : Nat) (va : W64) (pa : Nat) (expected new : W64) (dest : Dest)
  | reduce (op : Nat) (size : Nat) (va : W64) (pa : Nat) (operand : W64)
  | waitf (cond : BitVec 2) (va : W64) (pa : Nat) (operand : W64) (dest : Dest)
  | claim (name : BitVec 128) (nonBlocking : Bool) (status handle : Dest)
  | txc (dests : List (Nat × Dest))
  | arrive (id : Nat) (wait : Bool)
  | gbar
  | rewarp (key : BitVec 16) (count : Nat)
  deriving DecidableEq, Repr

/-- A path in flight (R25): its threads, its clause as fetched, the word that issues next, the prefixes in force, how
many flagged operations of the clause precede that word, which threads a transfer has steered, and the lanes whose
DET grant is pending (R295). -/
structure Path where
  uid : Nat
  lanes : W32
  header : W64
  words : List W32
  pos : Nat
  guard : Option (BitVec 3 × BitVec 1)
  rep : Option RepRun
  prefixPos : Option Nat
  prefixes : Nat
  flagged : Nat
  taken : W32
  /-- the position at which the path began: 0 at a header, another at a resumption (R301) -/
  start : Nat
  /-- the flag of a flagged word whose repetitions have not all issued (R138) -/
  busyFlag : Option Nat
  /-- a YIELD has issued (R161) -/
  yielded : Bool
  /-- an ICINV has issued (R165) -/
  icinv : Bool
  grants : List (Nat × SyncAct)
  walks : List Nat
  /-- bytes of the system window that the word that issues has waited for -/
  fetched : List Host.Cell
  /-- pages of 64 KiB for which the walk of a prefetch or discard that issues has found no translation (R210) -/
  unmapped : List Nat
  /-- stopped at a word that a fence, a full store path or a grant holds (R50, R214) -/
  held : Bool
  deriving DecidableEq, Repr

/-- Where the commit of a log that names the system window stands: its reads have been asked for again, with the
values that have come, or its writes have left (R96). -/
inductive TxCommit where
  | validating (asked : Bool) (values : List (Nat × W64))
  | writing
  deriving DecidableEq, Repr

/-- A gang's transaction (R219): members, logged reads and writes by the physical address of the doubleword (a write
with its virtual address, data and byte mask), what each lane has written itself, doom code, user code, whether TXC has
sent the log, how far its commit has come, and the status word once it has ended. -/
structure Tx where
  members : W32
  reads : List (Nat × W64)
  writes : List (Nat × W64 × W64 × BitVec 8)
  /-- the same by lane and doubleword: no thread sees another's (R96) -/
  laneWrites : List (Nat × Nat × W64 × BitVec 8)
  commit : TxCommit
  doom : Option Nat
  user : BitVec 8
  sent : Bool
  ended : Option W64
  deriving DecidableEq, Repr

/-- What a recorded read names (Table 5.5). -/
inductive ReadKey where
  | granule (g : Nat)
  | claim (name : BitVec 128)
  deriving DecidableEq, Repr

/-- Where a gang stands among its core's gangs (Table 2.8). -/
inductive Residency where
  | active
  | pendingReady
  | pendingWait
  | done
  deriving DecidableEq, Repr

/-- The state of one gang. -/
structure Gang where
  threads : List Thread
  masks : List W32
  flags : BitVec 12
  paths : List Path
  ages : List (W64 × Nat)
  serial : Bool
  laneAges : List Nat
  unacked : Nat
  clock : Nat
  filter : List ReadKey
  tx : Option Tx
  /-- ending statuses of earlier transactions, for members that have yet to reach TXC (R220) -/
  lateTx : List (Nat × W64)
  slot : Nat
  residency : Residency
  activeSlot : Option Nat
  age : Nat
  deriving DecidableEq, Repr

/-! ## Teams -/

/-- The states of Table 2.9 from admission on (TEAM_RESTORE passes through RESTORING within its step); `killed` is a team that R303 drains, `replay` the place that an audit's
replay takes on its core (R338). -/
inductive TeamState where
  | zeroing
  | running
  | draining
  | saved
  | exiting
  | killed
  | replay
  deriving DecidableEq, Repr

/-- A named barrier (R217); `mark` names the stores that its arrivals have released (R95). -/
structure Barrier where
  expected : Nat
  arrivals : Nat
  episode : Nat
  mark : Nat
  deriving DecidableEq, Repr

/-- An engine context (R94): commands issued, and the timeline counter. -/
structure Timeline where
  issued : Nat
  counter : Nat
  deriving DecidableEq, Repr

/-- Where an engine command stands. -/
inductive CommandState where
  | queued
  | running
  | heldFault (fault : Nat)
  | waitingWriter (granule : Nat)
  | waitingRemote
  | waitingWalk
  | written
  | done
  | stopped
  deriving DecidableEq, Repr

/-- An engine command (R222): its words as captured, how many of its elements are done, and the bytes of its next
element that have come from the system window. -/
structure Command where
  uid : Nat
  gang : Nat
  ctx : Nat
  ticket : Nat
  gather : Bool
  q0 : W64
  q1 : W64
  q2 : W64
  q3 : W64
  state : CommandState
  elements : Nat
  fetched : List Host.Cell
  /-- the stores below this name come before the command (R94, R95) -/
  after : Nat
  /-- source bytes that its own writes have covered, as they stood before them (R227) -/
  kept : List Host.Cell
  deriving DecidableEq, Repr

/-- A gang's log region in the team's scratch (R219): when a transaction last used it, and the offsets that have been
written since; the other bytes are in the device's own layout. -/
structure LogArea where
  gang : Nat
  tick : Nat
  kept : List Nat
  deriving DecidableEq, Repr

/-- A FULL register-block slot (R256): its lane mask and its count. -/
structure RegBlock where
  lanes : W32
  count : Nat
  deriving DecidableEq, Repr

/-- Why a team is killed, and what its record says (R303, R306). -/
structure Kill where
  cause : Nat
  firstCause : Nat
  info : W64
  addr : W64
  pc : W64
  lanes : W32
  kind : Nat
  slot : Nat
  silent : Bool
  deriving DecidableEq, Repr

/-- One value that the auditor logged (R337): a load with the time at which its word issued, which gives a thread's
program order; an element of an engine command; or the result of an instruction or a read of the core operand. -/
inductive AuditEntry where
  | load (gang lane issued : Nat) (va value : W64)
  | engine (ctx ticket element : Nat) (value : W64)
  | result (gang lane : Nat) (value : W64)
  deriving DecidableEq, Repr

/-- The auditor's selection of a team (R337). -/
structure AuditPick where
  number : Nat
  log : List AuditEntry
  dropped : Bool
  deriving DecidableEq, Repr

/-- The state of one team (R37, Table 2.10). -/
structure Team where
  uid : Nat
  task : Nat
  launch : Nat
  ctx : Nat
  core : Nat
  state : TeamState
  regs8 : Nat
  privUnits : Nat
  scratchUnits : Nat
  accTiles : Nat
  privBlock : W64
  scratch : Memory
  logs : List LogArea
  acc : Memory
  follower : Memory
  barriers : List Barrier
  barBase : Nat
  engMap : BitVec 16
  timelines : List Timeline
  queueRegs : List W64
  blocks : List (Option RegBlock)
  commands : List Command
  gangs : List Gang
  kill : Option Kill
  /-- a pre-emption that finds the team zeroing waits for it to run -/
  drainWanted : Bool
  saveOrder : Nat
  saveArea : W64
  /-- it took a trap, was pre-empted or issued an instruction that R337 excludes -/
  ineligible : Bool
  audit : Option AuditPick
  deriving DecidableEq, Repr

/-! ## Pending operations (R138) -/

/-- A load of one lane: where its result goes, its address, size and extension, whether the L1 keeps it, whether it
binds only at its home, and its value once bound (R85, R87). -/
structure LoadReq where
  dest : Dest
  va : W64
  pa : Nat
  size : Nat
  signExtend : Bool
  allocate : Bool
  bypass : Bool
  bound : Option W64
  deriving DecidableEq, Repr

/-- What another word has written to accumulator bytes in an MMA's flight (R139), and whether that word had issued
before the MMA, which may then read it. -/
structure TileNote where
  follower : Bool
  base : Nat
  data : List Byte
  earlier : Bool
  deriving DecidableEq, Repr

/-- An MMA as issued (R235): tile, accumulator type, formats and scales, and both operands' bytes row by row and column
by column. `chain` names the first repetition of its REP, or itself. `before`: what other words have written in its
flight (R139). `base`: what its tile, and the follower's, held before the first of them, or as the repetition before it
left them (R240). -/
structure MmaReq where
  tile : Nat
  accType : Nat
  aFormat : Nat
  bFormat : Nat
  aScales : List Byte
  bScales : List Byte
  aRows : List (List Byte)
  bCols : List (List Byte)
  paired : Bool
  overwrite : Bool
  chain : Nat
  before : List TileNote
  base : Option (List Byte × List Byte)
  deriving DecidableEq, Repr

/-- An ACCRD as issued (R241): each lane's destination registers and the slot that converts; `before` as for an MMA; and
the registers that have come ahead of the others, by lane and place (R139). -/
structure AccReq where
  tile : Nat
  accType : Nat
  follower : Bool
  slot : W64
  dests : List (Nat × List Dest)
  before : List (List Byte)
  given : List (Nat × Nat)
  deriving DecidableEq, Repr

/-- What a pending operation is. -/
inductive OpKind where
  | load (r : LoadReq)
  | atomic (a : SyncAct)
  /-- an atomic that its sync engine has performed: where its old value goes, and the flags that it raised -/
  | returned (dest : Dest) (old : Nat) (sat : Bool) (fp : BitVec 5)
  | claim (name : BitVec 128) (status handle : Dest) (result : Option (Nat × W64))
  | txc (dest : Dest) (result : Option W64)
  | spawn (dest : Dest) (value : W64)
  | spawnr (dest : Dest) (value : W64) (packet : Option Packet)
  | mma (r : MmaReq)
  | accrd (r : AccReq)
  deriving DecidableEq, Repr

/-- A pending operation of one lane, or of the gang for a matrix word, with its place among the thread's accesses.
`live` is false once its thread has exited or its team is killed: its register results are then discarded
(R154, R303). -/
structure Op where
  uid : Nat
  team : Nat
  gang : Nat
  lane : Nat
  core : Nat
  pc : W64
  flag : Option Nat
  live : Bool
  seq : Nat
  /-- the tick of the step that issued it: the lanes of one word share it -/
  batch : Nat
  /-- the stores below this name come before it (R89, R95) -/
  after : Nat
  /-- a CLAIM that has stood in its entry's queue (R296) -/
  queued : Bool
  kind : OpKind
  deriving DecidableEq, Repr

/-! ## Cores -/

/-- A sector held in an L1 (R85). -/
structure L1Sector where
  sector : Nat
  data : List Byte
  poisoned : Bool
  deriving DecidableEq, Repr

/-- What an entry of a store path does at its home (R86). -/
inductive StoreKind where
  | plain
  | reduce (op : Nat)
  /-- an edit of tracked memory of a context (R117, R251) -/
  | edit (ctx : Nat)
  deriving DecidableEq, Repr

/-- The path for which a word acts: team, gang and path. -/
structure Cursor where
  team : Nat
  gang : Nat
  path : Nat
  deriving DecidableEq, Repr

/-- Whether an entry is a reduction, which no load takes bytes from. -/
def StoreKind.reduces : StoreKind → Bool
  | .reduce _ => true
  | _ => false

/-- An entry of a core's store path: who issued it (an engine command, if one did), the address, the bytes, its place
among the thread's accesses, which earlier entries it stays behind, whether its request has left the device, and whether
it has yet to enter the path because a CLAIM or TXC before it has no result (R86, R87, R101). -/
structure StoreOp where
  uid : Nat
  team : Nat
  gang : Nat
  lane : Nat
  command : Option Nat
  va : W64
  pa : Nat
  data : List Byte
  kind : StoreKind
  seq : Nat
  digest : Bool
  after : Nat
  sent : Bool
  deferred : Bool
  /-- the gang whose unacknowledged count holds it: that of its issue, which a regroup does not change -/
  countGang : Nat
  /-- the address of the word that issued it, or of its first prefix -/
  pc : W64
  deriving DecidableEq, Repr

/-- A TLB entry (R261): context, first virtual address, size in bytes, and the leaf. -/
structure TlbEntry where
  ctx : Nat
  base : Nat
  size : Nat
  leaf : W64
  deriving DecidableEq, Repr

/-- A held A latch (R237): the run length and the rows and scales taken. -/
structure Latch where
  run : Nat
  rows : List (List Byte)
  scales : List Byte
  deriving DecidableEq, Repr

/-- One array's corrected errors (R353): those of the window under way, whether it began at nominal voltage, and the last
window's count, as far as that window did. -/
structure ErrorCount where
  array : CoreArray
  total : Nat
  nominal : Bool
  lastWindow : Nat
  deriving DecidableEq, Repr

/-- Where a clock's walk over the active gangs of a core started: the active slot, and the age and index of the gang
(R48). -/
structure WalkStart where
  slot : Nat
  age : Nat
  gang : Nat
  deriving DecidableEq, Repr

/-- The state of one core outside its teams. -/
structure Core where
  l1 : List L1Sector
  stores : List StoreOp
  icache : List (Nat × W32)
  tlb : List TlbEntry
  auditCtl : W64
  budget : Nat
  retired : Bool
  cycles : Nat
  latches : List (Option Latch)
  auditNumber : Nat
  errors : List ErrorCount
  marginWithdrawn : Bool
  /-- the paths to which the clock has given issue slots and that have yet to issue (R48) -/
  turn : List Cursor
  /-- where the latest clock's walk over the active gangs started -/
  walk : WalkStart
  /-- no path has been ready since that clock, so that clocks have passed unseen -/
  idle : Bool
  deriving DecidableEq, Repr

/-- A table walk in progress (R261): the address, the core, the access code of Table 12.3, and the path or the engine
command that waits (neither for a clause fetch, whose path has not begun). -/
structure Walk where
  uid : Nat
  ctx : Nat
  core : Nat
  va : W64
  access : Nat
  team : Nat
  gang : Nat
  path : Option Nat
  command : Option Nat
  /-- it serves a prefetch or discard, which does nothing where it finds no leaf (R210) -/
  quiet : Bool
  /-- the lanes that wait, each with its address -/
  lanes : List (Nat × W64)
  /-- the walk found the page being zeroed for another walk (R263) -/
  parked : Bool
  deriving DecidableEq, Repr

/-- An unresolved page fault (R264): the parked lanes, each with its address, and the word that they retry. -/
structure PageFault where
  id : Nat
  ctx : Nat
  core : Nat
  va : W64
  access : Nat
  level : Nat
  reason : Nat
  team : Nat
  gang : Nat
  slot : Nat
  lanes : List (Nat × W64)
  pc : W64
  word : Nat
  header : W64
  command : Option Nat
  posted : Bool
  deriving DecidableEq, Repr

/-- An INVAL in progress (R262), with its place among the commands. -/
structure Inval where
  uid : Nat
  ctx : Nat
  base : Nat
  pages : Nat
  command : Nat
  deriving DecidableEq, Repr

/-! ## Launches and tasks -/

/-- A launch's place in its life (Table 2.1 status). -/
inductive LaunchState where
  | queued
  | running
  | retired
  | failed
  deriving DecidableEq, Repr

/-- A SPAWNR packet that is not settled (R346, R350): its ticket and weight, the spawning task's ordinal, the packet,
and whether an acknowledgement of stage 0 has come. -/
structure Ticket where
  number : Nat
  weight : Nat
  ordinal : W64
  packet : Packet
  accepted : Bool
  /-- the weight was dealt by the reckoner's pool (R119) -/
  pooled : Bool
  deriving DecidableEq, Repr

/-- A launch that the device holds: its record's fields (Table 2.1) and its progress. -/
structure Launch where
  uid : Nat
  record : W64
  ctx : Nat
  queue : Nat
  state : LaunchState
  control : W64
  seed : W64
  partition : W64
  coreMask : BitVec 320
  slots : List W64
  expectedDigest : W64
  traceBase : W64
  traceSize : W64
  root : BitVec 512
  returned : Nat
  debt : Nat
  completed : Nat
  failCause : Option Nat
  replayWanted : Bool
  replays : Nat
  recordWritten : Bool
  tailCount : Nat
  tails : List (List (List Nat) × Nat × W64)
  sendCount : Nat
  /-- SPAWNR packets not yet settled (R346) -/
  unsettled : List Ticket
  gbarEpisode : Nat
  digestSum : W64
  /-- the task packet that started this launch, if one did (R40) -/
  packet : Option Packet
  deriving DecidableEq, Repr

/-- Where a task stands. -/
inductive TaskState where
  | waiting
  | resident
  | ended
  | remote
  deriving DecidableEq, Repr

/-- One task (R23, R36, R39, R41). -/
structure Task where
  uid : Nat
  launch : Nat
  parent : Option Nat
  rootIndex : Nat
  position : List (List Nat)
  /-- its ordinal, in a launch with TRACE or DET (R41, R106) -/
  ordinal : W64
  posKey : W64
  key : BitVec 128
  positional : Bool
  desc : BitVec 512
  descAddr : W64
  weight : Nat
  /-- the weight was dealt by the reckoner's pool (R119) -/
  pooled : Bool
  spawnIndex : Nat
  programKeys : List (BitVec 128)
  reexec : Bool
  written : Memory
  writtenAt : List Nat
  startClock : Nat
  arrival : Nat
  state : TaskState
  originCore : Nat
  /-- it has been counted among the completed tasks -/
  counted : Bool
  /-- cores on which an audit's third run does not take place (R339) -/
  avoid : List Nat
  /-- the audit that its next run decides -/
  audit : Option Nat
  /-- the handle of a SPAWNR child, if it is one (R247) -/
  handle : Option W64
  deriving DecidableEq, Repr

/-- An audit that has not ended (R337 to R339): the task, the core it ran on and its private block, its digest, the
weight that it holds back, the replay's team and core, the replay's digest, and whether a third run is to decide.
`ran` is the task as it ended, and in a replay the task with what that has stored; `left` is what a replay has not taken
of the log. A replay that has diverged, or that an error has stopped, says so. -/
structure Audit where
  uid : Nat
  task : Nat
  launch : Nat
  core : Nat
  block : W64
  digest : W64
  weight : Nat
  pooled : Bool
  replay : Option (Nat × Nat)
  replayDigest : Option W64
  third : Bool
  log : List AuditEntry
  ran : Task
  left : List AuditEntry
  mismatch : Bool
  lost : Bool
  deriving DecidableEq, Repr

/-! ## Traces (R103 to R124) -/

/-- Trace states (Table 5.1). -/
inductive TraceState where
  | recording
  | settling
  | ready
  | propagating
  | released
  | failed
  deriving DecidableEq, Repr

/-- Trace node states (Table 5.6). -/
inductive NodeState where
  | running
  | live
  | stale
  | reexec
  | remarked
  deriving DecidableEq, Repr

/-- A trace node (Table 5.4) with its lists. -/
structure Node where
  task : Nat
  position : List (List Nat)
  key : BitVec 128
  positional : Bool
  parent : Option Nat
  state : NodeState
  /-- a REMARKED or REEXEC node that runs as a re-execution, not its first run -/
  rerun : Bool
  descDigest : W64
  descAddr : W64
  taskDigest : W64
  reads : List ReadKey
  newReads : List ReadKey
  children : List Nat
  /-- in a re-execution, the edges of the old lists, which stand until it completes (R120, R121) -/
  oldEdges : Option (List Nat)
  unmatched : List Nat
  lastMatched : Option Nat
  lastChild : Option Nat
  writes : List Nat
  fulfilled : List (BitVec 128)
  failures : Nat
  /-- the send ticket and the handle of a remote child (R247) -/
  remote : Option (W64 × W64)
  deriving DecidableEq, Repr

/-- A registration in the reader index (R108, R112). -/
structure Reader where
  key : ReadKey
  task : Nat
  admitted : Bool
  deriving DecidableEq, Repr

/-- A context's trace (R104). -/
structure Trace where
  ctx : Nat
  launch : Nat
  state : TraceState
  base : W64
  size : Nat
  nodes : List Node
  readers : List Reader
  writers : List (Nat × Nat)
  propReexec : Nat
  propSpliced : Nat
  propDiscarded : Nat
  propNumber : Nat
  propDone : Nat
  /-- tasks that the reckoner started and that have not exited (R119) -/
  started : List Nat
  /-- nodes that a discard stops, whose teams have not ended (R121) -/
  stopping : List Nat
  poolReturned : Nat
  poolDebt : Nat
  /-- weight that the pool still holds, dealt by R39 -/
  poolHeld : Nat
  window : Nat
  /-- what its stores and unwrites have made of derived granules in the current run or propagation (R122) -/
  versions : List (Nat × List Byte)
  deriving DecidableEq, Repr

/-- A PROP that waits (R252); `awaits`: the tasks after whose ends it ends, once its trace, FAILED, has been released
(R331). -/
structure PropRequest where
  uid : Nat
  team : Nat
  gang : Nat
  lane : Nat
  ctx : Nat
  launch : Nat
  waitsForReady : Bool
  async : Bool
  dest : Dest
  record : Option W64
  number : Nat
  awaits : Option (List Nat)
  deriving DecidableEq, Repr

/-! ## The caddy (R125 to R129) -/

/-- A thread queued at a claim entry, by its pending CLAIM. -/
structure Waiter where
  op : Nat
  team : Nat
  task : Nat
  deriving DecidableEq, Repr

/-- A claim entry that is not ABSENT (R126). -/
structure Claim where
  name : BitVec 128
  index : Nat
  maker : Option Nat
  queue : List Waiter
  handle : Option W64
  oldHandle : Option W64
  writer : Option Nat
  lastUse : Nat
  /-- the entry lies in the die's share of the backing area, not in its SRAM (R128) -/
  backed : Bool
  deriving DecidableEq, Repr

/-! ## The host interface (R259 to R269) -/

/-- A context as CTXSET configures it. -/
structure Context where
  id : Nat
  table : Nat
  privBase : Nat
  privSize : Nat
  saveBase : Nat
  saveSize : Nat
  gangQuota : Nat
  poolQuota : Nat
  held : Bool
  deriving DecidableEq, Repr

/-- What stands in a launch queue: a record address from the host or a TAIL, or a task packet (R40, R267). -/
inductive QueueItem where
  | record (address : W64)
  | replay (launch : Nat)
  | packet (p : Packet)
  deriving DecidableEq, Repr

/-- A launch queue (R38, R267). -/
structure Queue where
  id : Nat
  enabled : Bool
  ctx : Nat
  priority : Nat
  ringBase : Nat
  entries : Nat
  template : W64
  generation : Nat
  dropped : Bool
  written : Nat
  items : List QueueItem
  running : Option Nat
  deriving DecidableEq, Repr

/-- A host command that has not been counted, with its status once known (R266). -/
structure HostCommand where
  uid : Nat
  status : Option Nat
  waits : List Nat
  deriving DecidableEq, Repr

/-- The machine-check ring (R306, R307). -/
structure McRing where
  configured : Bool
  base : Nat
  entries : Nat
  vector : Nat
  head : Nat
  tail : Nat
  drop : Nat
  seq : Nat
  deriving DecidableEq, Repr

/-- The device fault queue (R264, R310). -/
structure FaultQueue where
  configured : Bool
  base : Nat
  entries : Nat
  vector : Nat
  written : Nat
  nextId : Nat
  deriving DecidableEq, Repr

/-- A system-window aperture (R83). -/
structure Aperture where
  entry : Nat
  kind : Nat
  target : Nat
  deriving DecidableEq, Repr

/-- A request through the system window that no answer has settled (R271, R347): its system-window address, the packet
as sent, and the pending operation it serves, the core and the entry of its store path, the thread whose WAITF observes by
it, the engine command or the path whose word waits for it, the gang whose commit does, or the team that fetches code by
it; `unit` for fetches and for the reckoner's and the launch queues' own accesses; the core whose L1 its answer fills;
and the stores that the core has applied since (R86). -/
structure Remote where
  pa : Nat
  packet : Packet
  op : Option Nat
  store : Option (Nat × Nat)
  commit : Option (Nat × Nat)
  fill : Option Nat
  late : List StoreOp
  watcher : Option (Nat × Nat × Nat)
  command : Option (Nat × Nat)
  reader : Option Cursor
  fetcher : Option Nat
  unit : Bool
  deriving DecidableEq, Repr

/-- What a unit of the device, or the host's edit port, writes through a context's translation: fields of a launch's record, a completion
record, an edit, or bytes of a trace store. -/
inductive UnitAct where
  | field
  | completion
  | edit
  | store
  deriving DecidableEq, Repr

/-- Such a write, which waits until its page has been zeroed for another walk (R263). -/
structure UnitWrite where
  act : UnitAct
  ctx : Nat
  va : W64
  bytes : List Byte
  deriving DecidableEq, Repr

/-! ## The island (R270 to R278) -/

/-- Island states (Table 12.9). -/
inductive IslandState where
  | off
  | boot
  | forward
  | full
  | drain
  deriving DecidableEq, Repr

/-- A link port (R342, R343): whether its link is up, whether it is retired, the packets kept in its retry buffer,
and its error counts. -/
structure Port where
  up : Bool
  retired : Bool
  retry : List Packet
  failedReplays : Nat
  failedRetrains : Nat
  errors : Nat
  deriving DecidableEq, Repr

/-- One record of the island log (R343). -/
structure IslandRecord where
  event : Nat
  info : Nat
  deriving DecidableEq, Repr

/-- An image that boot has read, as an attestation report lists it (R278). -/
structure ImageEntry where
  digest : BitVec 384
  version : W64
  verified : Bool
  deriving DecidableEq, Repr

/-- An attestation report (R278). -/
structure Report where
  nonce : BitVec 256
  deviceId : BitVec 14
  state : IslandState
  images : List ImageEntry
  /-- the signatures by the two identity keys -/
  rsaSignature : BitVec 3072
  slhSignature : BitVec 62848
  deriving DecidableEq, Repr

/-- The router island. -/
structure Island where
  state : IslandState
  step : Nat
  held : Bool
  /-- the image that the recovery responder has put into flash, and whether it has accepted one since this boot began
  (R352) -/
  recovery : Option Image
  replaced : Bool
  bootHeld : Bool
  managementUp : Bool
  /-- the B-die and the compute dies run: the compute side has power and has been released (Table 12.10 step 6) -/
  computeUp : Bool
  port12Up : Bool
  unavailable : Bool
  ports : List Port
  routes : List (Nat × BitVec 16)
  deviceId : BitVec 14
  minVersion : Nat
  rsaKeyDigest : BitVec 384
  slhKeyDigest : BitVec 384
  images : List ImageEntry
  log : List IslandRecord
  /-- requests of other packages forwarded to port 12 and not yet answered (R348) -/
  forwarded : List Packet
  /-- this device's own requests that a reset of the island has lost (R350) -/
  lost : List Packet
  /-- packets sent out of a port, in order -/
  sent : List (Nat × Packet)
  /-- SPAWNR packets accepted: source, LAUNCHID, ticket (R350) -/
  accepted : List (Nat × W64 × Nat)
  /-- the input port served last, by output port and virtual channel (R270) -/
  turns : List (Nat × Nat)
  reports : List Report
  deriving DecidableEq, Repr

/-! ## The whole package -/

/-- The state of the package. -/
structure State where
  mem : Memory
  l2 : List L2Sector
  /-- the lines that the sync engines hold in their line SRAM (R13, R327), by number -/
  syncLines : List Nat
  cores : List (Nat × Core)
  teams : List Team
  ops : List Op
  launches : List Launch
  tasks : List Task
  traces : List Trace
  props : List PropRequest
  claims : List Claim
  backingBase : Nat
  backingEntries : Nat
  contexts : List Context
  queues : List Queue
  rrLast : List Nat
  launchedOnce : Bool
  hostCommands : List HostCommand
  cmdDone : Nat
  cmdStat : Nat
  mc : McRing
  fq : FaultQueue
  edCtx : Nat
  edCount : Nat
  msix : List Nat
  hostReads : List (List Byte × Bool)
  apertures : List Aperture
  remotes : List Remote
  /-- bytes of the system window that the reckoner or a launch queue has asked for -/
  unitFetched : List Host.Cell
  /-- addresses of the system window whose reading the reckoner or a launch queue has been refused, or found poisoned -/
  unitFailed : List Nat
  unitWrites : List UnitWrite
  outPackets : List Packet
  walks : List Walk
  invals : List Inval
  faults : List PageFault
  audits : List Audit
  /-- corrected errors of the arrays outside the cores, by array and place (R326) -/
  arrayErrors : List (Nat × Nat)
  island : Island
  inbox : List Instr
  agenda : Option Cursor
  cur : Option Cursor
  tick : Nat
  nextUid : Nat
  deriving DecidableEq, Repr

/-! ## Why a step stops -/

/-- Why the machine stops. -/
inductive Fault where
  /-- Raised by the meaning of an encoded word when no path issues (State.cur names none that is in flight): no thread
  executes the word. Safe: the machine has no such step. -/
  | noIssuingPath
  /-- Raised by the meaning of a step of the device (a completion, an internal event) whose occasion has not come: the
  operation, team, command or walk it names does not exist, or the rule that lets it happen is not satisfied. Safe:
  the machine has no such step. -/
  | notDue
  deriving DecidableEq, Repr

/-- Why an instruction is refused. -/
inductive Refusal where
  /-- Raised by an arm of exec whose instruction has no meaning yet. Safe: no claim can be made about it. -/
  | notModelled (mnemonic : String)
  deriving DecidableEq, Repr

/-! ## Reset -/

/-- A core at the reset of its die (R43, R65, R237). -/
def Core.reset : Core :=
  { l1 := [], stores := [], icache := [], tlb := [], auditCtl := 0#64, budget := 128, retired := false, cycles := 0,
    latches := List.replicate 8 none, auditNumber := 0, errors := [],
    marginWithdrawn := false, turn := [], walk := { slot := 0, age := 0, gang := 0 }, idle := false }

/-- A link port before training. -/
def Port.reset : Port :=
  { up := false, retired := false, retry := [], failedReplays := 0, failedRetrains := 0, errors := 0 }

/-- The island without power (Table 12.9). -/
def Island.reset : Island :=
  { state := .off, step := 0, held := false, recovery := none, replaced := false, bootHeld := false, managementUp := false,
    computeUp := false, port12Up := false, unavailable := false, ports := List.replicate 12 Port.reset, routes := [], deviceId := 0#14,
    minVersion := 0, rsaKeyDigest := 0#384, slhKeyDigest := 0#384, images := [], log := [], forwarded := [], lost := [],
    sent := [], accepted := [], turns := [], reports := [] }

/-- The package before its island has power: nothing configured, nothing running (R276). -/
def State.reset : State :=
  { mem := { era := 0, cells := [] }, l2 := [], syncLines := [], cores := [], teams := [], ops := [], launches := [], tasks := [],
    traces := [], props := [], claims := [], backingBase := 0, backingEntries := 0, contexts := [], queues := [],
    rrLast := [0, 0, 0, 0], launchedOnce := false, hostCommands := [], cmdDone := 0, cmdStat := 0,
    mc := { configured := false, base := 0, entries := 0, vector := 0, head := 0, tail := 0, drop := 0, seq := 0 },
    fq := { configured := false, base := 0, entries := 0, vector := 0, written := 0, nextId := 0 },
    edCtx := 0, edCount := 0, msix := [], hostReads := [], apertures := [], remotes := [], unitFetched := [],
    unitFailed := [], unitWrites := [], outPackets := [],
    walks := [], invals := [], faults := [], audits := [], arrayErrors := [], island := Island.reset, inbox := [], agenda := none,
    cur := none, tick := 0, nextUid := 0 }

end Sys2Proof.Machine
end

