-- ==== Sys2Proof/Machine/Operands.lean ====
section
/-! DEFINITION. Register operands (R59, R60, R133): what a field reads, where it writes, and the checks of R313 on the
fields of a word, with their TRAPINFO (R316). -/

namespace Sys2Proof.Machine

/-! ## Trap causes (Table 18.1) -/

/-- A cause and its TRAPINFO (R302). -/
structure Trap where
  cause : Nat
  info : W64
  deriving DecidableEq, Repr

namespace Cause
def illegal : Nat := 0x01
def illopnd : Nat := 0x02
def clause : Nat := 0x03
def align : Nat := 0x04
def addr : Nat := 0x05
def page : Nat := 0x06
def prot : Nat := 0x07
def retstack : Nat := 0x08
def calldepth : Nat := 0x09
def window : Nat := 0x0A
def converge : Nat := 0x0B
def matrixcheck : Nat := 0x0C
def poison : Nat := 0x0D
def traceorder : Nat := 0x0E
def traceconflict : Nat := 0x0F
def tracefull : Nat := 0x10
def edit : Nat := 0x11
def claim : Nat := 0x12
def digest : Nat := 0x13
def queue : Nat := 0x14
def double : Nat := 0x15
def priv : Nat := 0x16
def barrier : Nat := 0x17
def deadlock : Nat := 0x18
def pair : Nat := 0x19
def trap : Nat := 0x1A
end Cause

/-- A cause that kills the team without entering a handler (column Delivery of Table 18.1). -/
def isKillCause (c : Nat) : Bool :=
  c == Cause.matrixcheck || c == Cause.poison || c == Cause.double || c == Cause.pair

/-- ILLOPND for a word and an offending value (R316). -/
def illopnd (w : W32) (v : Nat) : Trap :=
  { cause := Cause.illopnd, info := BitVec.ofNat 32 v ++ w }

/-- ILLEGAL for a word. -/
def illegalTrap (w : W32) : Trap := { cause := Cause.illegal, info := w.setWidth 64 }

/-- PRIV for a word. -/
def privTrap (w : W32) : Trap := { cause := Cause.priv, info := w.setWidth 64 }

/-! ## One lane's view -/

/-- An active thread with what its special operands read (Table 3.1). -/
structure Lane where
  lane : Nat
  gang : Nat
  core : Nat
  ord : W64
  thread : Thread
  deriving DecidableEq, Repr

/-- A of R60: the physical window registers that the thread owns. -/
def Lane.alloc (l : Lane) : Nat := l.thread.x.length

/-- The value of a register field (Table 3.1). -/
def Lane.read (l : Lane) (f : BitVec 7) : W64 :=
  if f.toNat < 96 then l.thread.x.getD (l.thread.winBase + f.toNat) 0#64
  else if f.toNat < 112 then l.thread.y.getD (f.toNat - 96) 0#64
  else
    match f with
    | 113#7 => BitVec.ofNat 64 l.lane
    | 114#7 => BitVec.ofNat 64 l.gang
    | 115#7 => BitVec.ofNat 64 l.core
    | 116#7 => l.ord
    | _ => 0#64

/-- Where a register field writes: the physical register as it stands at issue (R156), or nothing. -/
def Lane.dest (l : Lane) (f : BitVec 7) : Dest :=
  if f.toNat < 96 then .x (l.thread.winBase + f.toNat)
  else if f.toNat < 112 then .y (f.toNat - 96)
  else .discard

/-- The k-th register of a run (R133): a run based at zero reads zero and discards in every place. -/
def runField (f : BitVec 7) (k : Nat) : BitVec 7 := if f = 112#7 then f else f + BitVec.ofNat 7 k

/-- Write a destination. -/
def Thread.write (t : Thread) (d : Dest) (v : W64) : Thread :=
  match d with
  | .discard => t
  | .x n => { t with x := t.x.set n v }
  | .y n => { t with y := t.y.set n v }

/-- What a destination holds. -/
def Thread.readDest (t : Thread) (d : Dest) : W64 :=
  match d with
  | .discard => 0#64
  | .x n => t.x.getD n 0#64
  | .y n => t.y.getD n 0#64

/-- A predicate. -/
def Thread.pred (t : Thread) (i : Nat) : Bool := t.p.getLsbD i

/-- Set a predicate. -/
def Thread.setPred (t : Thread) (i : Nat) (v : Bool) : Thread :=
  { t with p := if v then t.p ||| (1#8 <<< i) else t.p &&& ~~~(1#8 <<< i) }

/-! ## Field checks (R313) -/

/-- A field of a word, as the checks see it: a source or destination run of n registers, an index below a bound, or a
value that must meet a condition. -/
inductive Field where
  | src (f : BitVec 7) (n : Nat)
  | dst (f : BitVec 7) (n : Nat)
  | idx (v bound : Nat)
  | must (ok : Bool) (v : Nat)
  deriving DecidableEq, Repr

/-- Whether a run of n registers lies within one file, or is based at zero (R133). -/
def runOk (f n : Nat) : Bool := f + n ≤ 96 || (96 ≤ f && f + n ≤ 112) || f == 112

/-- The offending value of a field, if it has one (R59, R133, R316). -/
def Field.fault : Field → Option Nat
  | .src f n =>
    if f.toNat ≥ 117 then some f.toNat
    else if n ≤ 1 || runOk f.toNat n then none else some f.toNat
  | .dst f n => if runOk f.toNat n then none else some f.toNat
  | .idx v bound => if v < bound then none else some v
  | .must ok v => if ok then none else some v

/-- The lowest physical register at or above A that a field names, if any (R60, R316). -/
def Field.window (base alloc : Nat) : Field → Option Nat
  | .src f n | .dst f n =>
    if f.toNat < 96 && base + f.toNat + (n - 1) ≥ alloc then
      some (if base + f.toNat ≥ alloc then base + f.toNat else alloc)
    else none
  | .idx _ _ => none
  | .must _ _ => none

/-- The least of the numbers present. -/
def leastOf : List (Option Nat) → Option Nat
  | [] => none
  | none :: xs => leastOf xs
  | some a :: xs =>
    match leastOf xs with
    | none => some a
    | some b => some (if a ≤ b then a else b)

/-- ILLOPND for the fields of a word in order, then WINDOW (R313). -/
def Lane.fieldTrap (l : Lane) (w : W32) (fs : List Field) : Option Trap :=
  match fs.findSome? Field.fault with
  | some v => some (illopnd w v)
  | none =>
    match leastOf (fs.map (Field.window l.thread.winBase l.alloc)) with
    | some n => some { cause := Cause.window, info := BitVec.ofNat 64 n }
    | none => none

end Sys2Proof.Machine
end

