-- ==== Sys2Proof/Machine/Flags.lean ====
section
/-! DEFINITION. The flags a thread keeps (SATF and FPFLAGS, R64, R75) and the completion flags of a gang (R138). -/

namespace Sys2Proof.Machine

/-! ## Sticky flags of a thread -/

/-- OR floating-point flags into FPFLAGS (R75, R181). -/
def Thread.orFp (t : Thread) (f : Flags) : Thread := { t with fp := t.fp ||| f }

/-- Set SATF when something was clamped (Table 3.4). -/
def Thread.orSat (t : Thread) (c : Bool) : Thread := { t with satf := t.satf || c }

/-- Both kinds of flags of a floating-point result. -/
def Thread.orResult (t : Thread) (r : FpResult) : Thread := (t.orFp r.flags).orSat r.sat

/-- The flags of several element results together (R75). -/
def flagsOf (rs : List FpResult) : Flags := rs.foldl (fun f r => f ||| r.flags) 0#5

/-- Whether any element result was clamped. -/
def satOf (rs : List FpResult) : Bool := rs.any FpResult.sat

/-! ## Completion flags of a gang -/

/-- The flag that the n-th flagged operation of a clause sets (R134, R138): none for 0xF. -/
def flagOfHeader (header : W32) (n : Nat) : Option Nat :=
  let f := if n == 0 then field header.toNat 12 4 else field header.toNat 8 4
  if f < 12 then some f else none

/-- Set a completion flag. -/
def Gang.setFlag (g : Gang) (f : Nat) : Gang := { g with flags := g.flags ||| (1#12 <<< f) }

/-- Clear a completion flag. -/
def Gang.clearFlag (g : Gang) (f : Nat) : Gang := { g with flags := g.flags &&& ~~~(1#12 <<< f) }

/-- Whether a pending operation holds a flag of a gang. -/
def Op.holds (o : Op) (team gang f : Nat) : Bool := o.team == team && o.gang == gang && o.flag == some f

/-- Whether a path of the gang has repetitions of a flagged word still to issue (R138). -/
def Gang.busy (g : Gang) (f : Nat) : Bool := g.paths.any fun p => p.busyFlag == some f

end Sys2Proof.Machine
end

