-- ==== Sys2Proof/Config.lean ====
section
/-! DEFINITION. What the specification leaves open: constants without a body, so that nothing can be proved about their
values (each is named in a row of notes/assumptions). -/

namespace Sys2Proof.Config

/-- Which of the steps that can happen next happens (R6, R58), by tick. -/
opaque choice : Nat → Nat

/-- Which line or sector leaves a full array (R13): tick, and how many have left it in the same step. -/
opaque evicts : Nat → Nat → Nat

/-- Which of the values that R139 allows an accumulator element takes: tick and offset. -/
opaque elementChoice : Nat → Nat → Nat

/-- The bytes of device memory after the compute side has been reset (R349), by reset and address. -/
opaque freeByte : Nat → Nat → Byte

/-- Which of the values that lie between its neighbours' a new ordinal takes (R106): launch, task, and how many they are. -/
opaque ordinalChoice : Nat → Nat → Nat → Nat

/-- How far a core's cycle counter has run on (R166), by tick. -/
opaque cycleGap : Nat → Nat

/-- Whether the L1 still holds a sector (R85): tick and sector. -/
opaque l1Keeps : Nat → Nat → Bool

/-- Whether the instruction cache still holds a word (R165): tick and address. -/
opaque icacheKeeps : Nat → Nat → Bool

/-- Which of its two neighbours FRSQ delivers (R77): F64 or F32, and the operand's bits. -/
opaque frsqUp : Bool → Nat → Bool

/-- Which value within the bound a special function delivers (R77, R194): the function and the operand's bits. -/
opaque functionChoice : Nat → Nat → Nat

/-- Which of the free gang slots, barrier ids and engine contexts a team receives: tick and number. -/
opaque placement : Nat → Nat → Nat

/-- Where the device places a team's private block among the free ranges (R37), by task. -/
opaque privateBlock : Nat → Nat

/-- A byte of a copy command's destination where it overlaps the source (R227): command and address. -/
opaque overlapByte : Nat → Nat → Byte

/-- A byte of the scratch region that holds an open transaction's log (R219): tick and offset. -/
opaque logByte : Nat → Nat → Byte

/-- Which of the values that R122 allows a read of derived memory finds: tick, reader and granule. -/
opaque unsettledPick : Nat → Nat → Nat → Nat

/-- Where a key stands in the index region of a trace store, whose layout is private to the device (R114): base and
key. -/
opaque indexSlot : Nat → Nat → Nat

/-- A byte of memory whose layout is private to the device: a save area (R51), a ring entry that holds a packet (R40):
context and address. -/
opaque privateByte : Nat → Nat → Byte

/-- The word that CLAUSE reports at an address that is no word's (R302), by the tick and the address. -/
opaque wordFound : Nat → W64 → W32

/-- The device identity (R278), made at manufacture and never exported: the RSA-3072 key pair, by its modulus and its two
exponents. -/
opaque identityModulus : BitVec 3072
opaque identityExponent : W64
opaque identityPrivate : BitVec 3072

/-- The SLH-DSA-SHA2-128s key pair: the secret seed, the key of the randomiser, and the public key's seed and root. -/
opaque identitySeed : BitVec 128
opaque identityPrf : BitVec 128
opaque identityPublic : BitVec 256

/-- The certificate chain of each key to its maker's roots (R278), as the certificates' bytes. -/
opaque rsaCertificates : List (List Byte)
opaque slhCertificates : List (List Byte)

/-- What the two signatures of a report draw (R277, R278): the 48-byte salt and the randomness of the other, by the tick. -/
opaque signingSalt : Nat → BitVec 384
opaque signingRandom : Nat → BitVec 128

/-- What a register below WINBASE holds after a regroup (R32), which carries only the window: tick, place, register. -/
opaque regroupRegister : Nat → Nat → Nat → W64

end Sys2Proof.Config
end

