-- ==== Sys2Proof/Machine/Mem.lean ====
section
/-! DEFINITION. Memory: single bytes, wider accesses, and device memory at its home slices with the write masks and
poison bits of the L2 (R81, R84, R88, R327). -/

namespace Sys2Proof.Machine

/-! ## One memory -/

/-- What an unlisted address reads as: 0x00, or after a compute reset a free value. -/
def Memory.background (m : Memory) (a : Nat) : Byte := if m.era = 0 then 0#8 else Config.freeByte m.era a

/-- One byte of a memory. -/
def Memory.read (m : Memory) (a : Nat) : Byte :=
  match m.cells.find? fun c => c.1 == a with
  | some c => c.2
  | none => m.background a

/-- Put a byte into a sorted list of cells; a byte equal to the background leaves the list. -/
def putCell (bg : Byte) (a : Nat) (b : Byte) : List Host.Cell → List Host.Cell
  | [] => if b = bg then [] else [(a, b)]
  | c :: cs =>
    if c.1 < a then c :: putCell bg a b cs
    else if c.1 = a then (if b = bg then cs else (a, b) :: cs)
    else if b = bg then c :: cs else (a, b) :: c :: cs

/-- Write one byte. -/
def Memory.write (m : Memory) (a : Nat) (b : Byte) : Memory :=
  { m with cells := putCell (m.background a) a b m.cells }

/-- The canonical form: addresses strictly rising, no cell equal to the background. -/
def Memory.wf (m : Memory) : Bool :=
  decide (m.cells.Pairwise fun c d => c.1 < d.1) && m.cells.all fun c => c.2 != m.background c.1

/-- n bytes from an address upward. -/
def Memory.readBytes (m : Memory) : Nat → Nat → List Byte
  | _, 0 => []
  | a, n + 1 => m.read a :: m.readBytes (a + 1) n

/-- An n-byte access, little-endian (R81). -/
def Memory.readNat (m : Memory) (a n : Nat) : Nat := natOfBytes (m.readBytes a n)

/-- Write bytes from an address upward. -/
def Memory.writeBytes (m : Memory) : Nat → List Byte → Memory
  | _, [] => m
  | a, b :: bs => (m.write a b).writeBytes (a + 1) bs

/-- An n-byte write, little-endian. -/
def Memory.writeNat (m : Memory) (a n v : Nat) : Memory := m.writeBytes a (bytesOfNat n v)

/-- Zero n bytes. Where the background is zero the cells of the range leave the list. -/
def Memory.zero (m : Memory) (a n : Nat) : Memory :=
  if m.era = 0 then { m with cells := m.cells.filter fun c => !(decide (a ≤ c.1) && decide (c.1 < a + n)) }
  else m.writeBytes a (List.replicate n 0#8)

/-- A memory that a unit has zeroed. -/
def Memory.empty : Memory := { era := 0, cells := [] }

/-! ## Device memory at its home (R84, R88) -/

/-- HomeSlice of R84: the home die and the slice within it. -/
def homeSlice (pa : Nat) : Nat × Nat :=
  let s := (field pa 8 8 ^^^ field pa 16 8) ^^^ (field pa 24 8 ^^^ field pa 32 7)
  (s / 64, s % 64)

/-- The device's own memory: addresses below 2^39 (R83). -/
def deviceBytes : Nat := 2 ^ 39

/-- The 64-byte sector of an address. -/
def sectorOf (pa : Nat) : Nat := pa / 64

/-- What the L2 holds of a sector. -/
def State.l2Sector (s : State) (sec : Nat) : L2Sector :=
  match s.l2.find? fun x => x.sector == sec with
  | some x => x
  | none => { sector := sec, mask := 0#64, poisoned := false, cover := 0#64 }

/-- Put a sector's record into the list, in order; a record that says nothing leaves it. -/
def putSector (x : L2Sector) : List L2Sector → List L2Sector
  | [] => if x.mask = 0#64 && !x.poisoned then [] else [x]
  | y :: ys =>
    if y.sector < x.sector then y :: putSector x ys
    else
      let rest := if y.sector = x.sector then ys else y :: ys
      if x.mask = 0#64 && !x.poisoned then rest else x :: rest

def State.setL2 (s : State) (x : L2Sector) : State := { s with l2 := putSector x s.l2 }

/-- The home of a line that a sync engine takes into its line SRAM (R10). -/
def lineDie (line : Nat) : Nat := (homeSlice (256 * line)).1

/-- A sync engine holds a line. -/
def State.holdLine (s : State) (line : Nat) : State :=
  { s with syncLines := line :: s.syncLines.filter fun x => x != line }

/-- Lines that one die's sync engines hold. -/
def State.heldLines (s : State) (die : Nat) : List Nat := s.syncLines.filter fun x => lineDie x == die

/-- One line leaves a die's line SRAM; which one is not stated (R13), and k numbers those that leave in one step. -/
def State.evictLine (s : State) (die k : Nat) : State :=
  let held := s.heldLines die
  match held[Config.evicts s.tick k % held.length]? with
  | some x => { s with syncLines := s.syncLines.filter fun y => y != x }
  | none => s

/-- Lines leave a die's line SRAM of 16 MiB until it holds 65,536. -/
def State.evictLines (s : State) (die : Nat) : State :=
  (List.range ((s.heldLines die).length - 65536)).foldl (fun s k => s.evictLine die k) s

/-- The sectors of an L2 slice that have been written. -/
def State.heldSectors (s : State) (slice : Nat × Nat) : List L2Sector :=
  s.l2.filter fun x => x.mask != 0#64 && homeSlice (64 * x.sector) == slice

/-- One sector leaves an L2 slice: its masked bytes go to HBM5, and a poisoned one comes back poisoned (R88, R327). Which
one is not stated (R13). -/
def State.evictSector (s : State) (slice : Nat × Nat) (k : Nat) : State :=
  let held := s.heldSectors slice
  match held[Config.evicts s.tick k % held.length]? with
  | some x => s.setL2 { x with mask := 0#64 }
  | none => s

/-- Sectors leave an L2 slice of 1 MiB until it holds 16,384. -/
def State.evictSlice (s : State) (slice : Nat × Nat) : State :=
  (List.range ((s.heldSectors slice).length - 16384)).foldl (fun s k => s.evictSector slice k) s

/-- The capacities of the L2 slices and of the sync engines' line SRAMs. -/
def State.evict (s : State) : State :=
  let s := if s.syncLines.length ≤ 65536 then s else (List.range 4).foldl State.evictLines s
  if s.l2.length ≤ 16384 then s
  else (List.range 4).foldl (fun s d => (List.range 64).foldl (fun s k => s.evictSlice (d, k)) s) s

/-- Poison a sector (R326). -/
def State.poison (s : State) (sec : Nat) : State :=
  s.setL2 { s.l2Sector sec with poisoned := true, cover := 0#64 }

/-- Whether any sector that n bytes at pa touch is poisoned (R328). -/
def State.poisonedAt (s : State) (pa n : Nat) : Bool :=
  (List.range ((pa + n - 1) / 64 - pa / 64 + 1)).any fun k => (s.l2Sector (pa / 64 + k)).poisoned

/-- The bits of a sector that a byte address covers. -/
def sectorBit (pa : Nat) : BitVec 64 := BitVec.ofNat 64 (1 <<< (pa % 64))

/-- Record that a byte of a sector has been written: its mask bit, its cover since poisoning, and the end of the
poison once the cover is complete (R88, R327). -/
def L2Sector.cover1 (x : L2Sector) (pa : Nat) : L2Sector :=
  let c := x.cover ||| sectorBit pa
  if x.poisoned then
    if c = BitVec.allOnes 64 then { x with mask := x.mask ||| sectorBit pa, poisoned := false, cover := 0#64 }
    else { x with mask := x.mask ||| sectorBit pa, cover := c }
  else { x with mask := x.mask ||| sectorBit pa }

/-- Apply bytes to device memory at their home slices. -/
def State.homeWrite (s : State) : Nat → List Byte → State
  | _, [] => s
  | pa, b :: bs =>
    let s' := { s with mem := s.mem.write pa b }
    (s'.setL2 ((s'.l2Sector (sectorOf pa)).cover1 pa)).homeWrite (pa + 1) bs

/-- Zero a page or a span at its home slices; every sector wholly inside is covered (R263, R327). -/
def State.homeZero (s : State) (pa n : Nat) : State :=
  { s with
    mem := s.mem.zero pa n
    l2 := s.l2.map fun x =>
      if decide (pa ≤ x.sector * 64) && decide (x.sector * 64 + 64 ≤ pa + n) then
        { x with mask := BitVec.allOnes 64, poisoned := false, cover := 0#64 } else x }

/-- Read device memory at its home. -/
def State.homeRead (s : State) (pa n : Nat) : Nat := s.mem.readNat pa n

end Sys2Proof.Machine
end

