-- ==== Sys2Proof/Machine/WordFields.lean ====
section
/-! DEFINITION. The d, a and b fields of a word as REP steps them (R141). -/

namespace Sys2Proof.Machine

/-- A field of a word as a REP step sees it: the format lacks it; a run of registers; the A run of an MMA, whose length
each repetition's own control word gives; anything else. -/
inductive StepField where
  | lacks
  | reg (f : BitVec 7) (n : Nat)
  | aRun (f : BitVec 7)
  | fixed (v : Nat)
  deriving DecidableEq, Repr

/-- A register of the format. -/
def stepReg (f : BitVec 7) : StepField := .reg f 1

/-- The d, a and b fields of an instruction for REP; m is the run of an ACCRD or ACCWR. A field that the format has and
the instruction leaves unused, which the encoding states as zero, counts as an index of value 0: a nonzero step for it
raises ILLOPND, where R141 names special operands, indexes and fields that the format lacks (DESIGN CHOICE, log 16). -/
def stepFields (m : Nat) : Instr → StepField × StepField × StepField
  | .add _ _ _ d a b | .sub _ _ _ d a b | .mul _ _ _ d a b => (stepReg d, stepReg a, stepReg b)
  | .mad _ d a b | .min _ _ d a b | .max _ _ d a b => (stepReg d, stepReg a, stepReg b)
  | .and d a b | .or d a b | .xor d a b | .andn d a b | .orn d a b | .xnor d a b => (stepReg d, stepReg a, stepReg b)
  | .shl _ d a b | .shr _ d a b | .sar _ d a b | .rol _ d a b => (stepReg d, stepReg a, stepReg b)
  | .bfx _ d a b | .bfi d a b | .sel _ _ d a b | .lea _ d a b | .pdot2 _ d a b | .psrr _ d a b | .pnarrow _ _ d a b =>
    (stepReg d, stepReg a, stepReg b)
  | .fadd _ _ d a b | .fsub _ _ d a b | .fmul _ _ d a b | .ffma _ _ d a b | .fmin _ _ d a b | .fmax _ _ d a b
  | .fcpys _ d a b | .fscl _ d a b => (stepReg d, stepReg a, stepReg b)
  | .shfl _ d a b | .slide _ _ d a b | .bcst _ d a b | .lsscan _ _ d a b | .isect d a b => (stepReg d, stepReg a, stepReg b)
  | .ldx _ _ _ d a b | .stx _ d a b | .lds _ _ d a b | .sts _ d a b => (stepReg d, stepReg a, stepReg b)
  | .atom _ d a b | .atomw _ d a b | .waitf _ d a b | .propagate _ d a b => (stepReg d, stepReg a, stepReg b)
  | .addi d a _ | .andi d a _ | .ori d a _ | .xori d a _ => (stepReg d, stepReg a, .lacks)
  | .shli d a _ | .shri d a _ | .sari d a _ | .roli d a _ => (stepReg d, stepReg a, .lacks)
  | .ldd d a _ | .ldw d a _ | .ldh d a _ | .ldb d a _ | .std d a _ | .stw d a _ | .sth d a _ | .stb d a _ | .edit d a _ =>
    (stepReg d, stepReg a, .lacks)
  | .abs d a e | .neg d a e | .not d a e | .popc d a e | .clz d a e | .ctz d a e | .brev d a e | .bswap d a e =>
    (stepReg d, stepReg a, .fixed e.toNat)
  | .lscan _ _ d a e | .lred _ _ d a e => (stepReg d, stepReg a, .fixed e.toNat)
  | .pwiden _ _ _ d a | .fabs _ d a | .fneg _ d a | .fcls _ d a | .frnd _ _ d a => (stepReg d, stepReg a, .fixed 0)
  | .ftoi _ _ d a u | .itof _ _ d a u => (stepReg d, stepReg a, .fixed u.toNat)
  | .fcvt _ d a r s => (stepReg d, stepReg a, .fixed (8 * r.toNat + s.toNat))
  | .frcp _ d a | .frsq _ d a | .fsqrt _ d a => (stepReg d, stepReg a, .fixed 0)
  | .fex2 d a | .flg2 d a | .fsin d a | .fcos d a | .ftnh d a => (stepReg d, stepReg a, .fixed 0)
  | .cmp _ _ p a b | .fcmp _ _ p a b | .fpcmp _ _ p a b => (.fixed p.toNat, stepReg a, stepReg b)
  | .cmpi c p a _ => (.fixed (8 * c.toNat + p.toNat), stepReg a, .lacks)
  | .mov d a | .ballot d a | .matchLanes d a | .tstat d a | .tail d a => (stepReg d, stepReg a, .fixed 0)
  | .pget d | .active d | .cntc d | .cnti d | .txc d | .txs d | .tdig d => (stepReg d, .fixed 0, .fixed 0)
  | .pset a | .trap a | .txa a => (.fixed 0, stepReg a, .fixed 0)
  | .pand d a b | .por d a b | .pxor d a b => (.fixed d.toNat, .fixed a.toNat, .fixed b.toNat)
  | .pnot d a => (.fixed d.toNat, .fixed a.toNat, .fixed 0)
  | .mvi d _ | .mvh1 d _ | .mvh2 d _ | .mvh3 d _ => (stepReg d, .lacks, .lacks)
  | .join m | .leave m | .waitm m => (.fixed 0, .fixed m.toNat, .fixed 0)
  | .mset m b => (.fixed 0, .fixed m.toNat, stepReg b)
  | .mget d m => (stepReg d, .fixed m.toNat, .fixed 0)
  | .anyVote p a | .allVote p a => (.fixed p.toNat, stepReg a, .fixed 0)
  | .elect p => (.fixed p.toNat, .fixed 0, .fixed 0)
  | .brk c => (.fixed 0, .fixed 0, .fixed c.toNat)
  | .srd d i j | .swr d i j => (stepReg d, .fixed i.toNat, .fixed j.toNat)
  | .prfl1 a b | .prfl2 a b | .dscd a b => (.fixed 0, stepReg a, stepReg b)
  | .atred _ z a b => (.fixed z.toNat, stepReg a, stepReg b)
  | .cas _ d a b => (stepReg d, stepReg a, .reg b 2)
  | .bars _ => (.fixed 0, .fixed 0, .lacks)
  | .bara _ => (.fixed 1, .fixed 0, .lacks)
  | .barw _ => (.fixed 2, .fixed 0, .lacks)
  | .bari a _ => (.fixed 3, stepReg a, .lacks)
  | .tlwait _ a | .stq _ a => (.fixed 0, stepReg a, .fixed 0)
  | .tlrd _ d => (stepReg d, .fixed 0, .fixed 0)
  | .goCopy d c | .goGather d c => (stepReg d, .fixed 0, .fixed c.toNat)
  | .mma _ _ _ _ t a b => (.fixed t.toNat, .aRun a, stepReg b)
  | .accrd _ _ d t y => (.reg d m, .fixed t.toNat, .fixed y.toNat)
  | .accwr _ _ t a y => (.fixed t.toNat, .reg a m, .fixed y.toNat)
  | .accz _ t n => (.fixed 0, .fixed t.toNat, .fixed n.toNat)
  | .spawn d a b => (stepReg d, stepReg a, .reg b 2)
  | .spawnr d a b => (stepReg d, .reg a 2, .reg b 2)
  | .claim _ d a => (.reg d 2, .reg a 2, .fixed 0)
  | .fulfil a b => (.fixed 0, .reg a 2, stepReg b)
  | .relinq a | .forget a => (.fixed 0, .reg a 2, .fixed 0)
  | .rbgive k a n => (.fixed k.toNat, .reg a (n.toNat + 1), .fixed n.toNat)
  | .rbtake d k n => (.reg d (n.toNat + 1), .fixed k.toNat, .fixed n.toNat)
  | _ => (.fixed 0, .fixed 0, .fixed 0)

/-- How many of a word's fields name the core operand. -/
def coreReads (w : Instr) : Nat :=
  let f := stepFields 1 w
  ([f.1, f.2.1, f.2.2].filter fun x => match x with
    | .reg r _ | .aRun r => r == 115#7
    | _ => false).length

end Sys2Proof.Machine
end

