-- ==== Sys2Proof/Machine/Ops.lean ====
section
/-! DEFINITION. The shared operations of a step: finding and updating the parts of the state, the issuing path, taking a
trap and returning from one (R299 to R301), killing a team (R303), and the retirement of words and clauses
(R25, R53, R136, R141). -/

namespace Sys2Proof.Machine

/-! ## Finding and updating -/

def State.team? (s : State) (uid : Nat) : Option Team := s.teams.find? fun t => t.uid == uid

def State.modTeam (s : State) (uid : Nat) (f : Team → Team) : State :=
  { s with teams := s.teams.map fun t => if t.uid == uid then f t else t }

def Team.modGang (t : Team) (g : Nat) (f : Gang → Gang) : Team := { t with gangs := t.gangs.modify g f }

def Gang.modThread (g : Gang) (l : Nat) (f : Thread → Thread) : Gang := { g with threads := g.threads.modify l f }

def Gang.path? (g : Gang) (p : Nat) : Option Path := g.paths.find? fun q => q.uid == p

def Gang.modPath (g : Gang) (p : Nat) (f : Path → Path) : Gang :=
  { g with paths := g.paths.map fun q => if q.uid == p then f q else q }

def Gang.dropPath (g : Gang) (p : Nat) : Gang := { g with paths := g.paths.filter fun q => q.uid != p }

/-- Change the threads of some lanes. -/
def Gang.mapLanes (g : Gang) (ls : List Nat) (f : Nat → Thread → Thread) : Gang :=
  { g with threads := g.threads.mapIdx fun l t => if ls.contains l then f l t else t }

def State.gang? (s : State) (team gang : Nat) : Option Gang := (s.team? team).bind fun t => t.gangs[gang]?

def State.modGang (s : State) (team gang : Nat) (f : Gang → Gang) : State := s.modTeam team fun t => t.modGang gang f

def State.thread? (s : State) (team gang lane : Nat) : Option Thread :=
  (s.gang? team gang).bind fun g => g.threads[lane]?

def State.modThread (s : State) (team gang lane : Nat) (f : Thread → Thread) : State :=
  s.modGang team gang fun g => g.modThread lane f

def State.path? (s : State) (c : Cursor) : Option Path := (s.gang? c.team c.gang).bind fun g => g.path? c.path

def State.modPath (s : State) (c : Cursor) (f : Path → Path) : State :=
  s.modGang c.team c.gang fun g => g.modPath c.path f

def State.op? (s : State) (uid : Nat) : Option Op := s.ops.find? fun o => o.uid == uid

def State.modOp (s : State) (uid : Nat) (f : Op → Op) : State :=
  { s with ops := s.ops.map fun o => if o.uid == uid then f o else o }

def State.dropOp (s : State) (uid : Nat) : State := { s with ops := s.ops.filter fun o => o.uid != uid }

def State.launch? (s : State) (uid : Nat) : Option Launch := s.launches.find? fun l => l.uid == uid

def State.modLaunch (s : State) (uid : Nat) (f : Launch → Launch) : State :=
  { s with launches := s.launches.map fun l => if l.uid == uid then f l else l }

def State.task? (s : State) (uid : Nat) : Option Task := s.tasks.find? fun t => t.uid == uid

def State.modTask (s : State) (uid : Nat) (f : Task → Task) : State :=
  { s with tasks := s.tasks.map fun t => if t.uid == uid then f t else t }

def State.core (s : State) (c : Nat) : Core := lookupD s.cores c Core.reset

def State.modCore (s : State) (c : Nat) (f : Core → Core) : State :=
  { s with cores := insertAt s.cores c (f (s.core c)) }

def State.trace? (s : State) (ctx : Nat) : Option Trace := s.traces.find? fun t => t.ctx == ctx

def State.modTrace (s : State) (ctx : Nat) (f : Trace → Trace) : State :=
  { s with traces := s.traces.map fun t => if t.ctx == ctx then f t else t }

def State.context? (s : State) (ctx : Nat) : Option Context := s.contexts.find? fun c => c.id == ctx

def State.queue? (s : State) (q : Nat) : Option Queue := s.queues.find? fun x => x.id == q

def State.modQueue (s : State) (q : Nat) (f : Queue → Queue) : State :=
  { s with queues := s.queues.map fun x => if x.id == q then f x else x }

/-- The name for something new. -/
def State.bump (s : State) : State := { s with nextUid := s.nextUid + 1 }

/-- Let time pass for the free values. -/
def State.advance (s : State) : State := { s with tick := s.tick + 1 }

/-! ## Launch flags (Table 2.2) -/

def Launch.traced (l : Launch) : Bool := l.control.getLsbD 0
def Launch.det (l : Launch) : Bool := l.control.getLsbD 1
def Launch.coop (l : Launch) : Bool := l.control.getLsbD 2
def Launch.paired (l : Launch) : Bool := l.control.getLsbD 3
def Launch.idempotent (l : Launch) : Bool := l.control.getLsbD 4

/-- root_teams_m1 + 1. -/
def Launch.rootTeams (l : Launch) : Nat := field l.control.toNat 12 16 + 1

/-- Whether a launch runs under DET. -/
def State.detLaunch (s : State) (launch : Nat) : Bool := ((s.launch? launch).map Launch.det).getD false

/-- The launch binds a format slot to its format code (Table 3.17). -/
def Launch.slot (l : Launch) (k : Nat) : W64 := l.slots.getD k 0#64

/-- A task's ordinal as the ord operand reads it (R41, R59). -/
def ordinalOf (l : Launch) (t : Task) : W64 := if l.traced || l.det then t.ordinal else 0#64

/-! ## The issuing path -/

/-- A thread as admission leaves one (Table 3.2), with no registers yet. -/
def Thread.blank : Thread :=
  { pc := 0#64, x := [], y := List.replicate 16 0#64, p := 0#8, repState := 0#64, repNext := none, winBase := 0, satf := false, fp := 0#5,
    retDepth := 0, privBase := 0#64, trapPc := 0#64, trapCause := 0#64, trapInfo := 0#64, trapVec := 0#64,
    trapDepth := false, resumeHeader := 0#64, recording := false, cnti := 0, exited := false, blocked := .none,
    atRetire := .none, trapWait := .none, resume := none, prefixDone := none, prefixDoneHandler := none, arrivals := [],
    gbarArrival := none, relHold := false, memSeq := 0, claimsDone := [], seen := 0, relStore := 0, relRead := 0 }

/-- Where a thread stands: the word it resumes at, or its PC. -/
def Thread.place (t : Thread) : W64 :=
  match t.resume with
  | some r => r.word
  | none => t.pc

/-- The path for which a word acts, with everything it belongs to. -/
structure Issue where
  cursor : Cursor
  team : Team
  task : Task
  launch : Launch
  gang : Gang
  path : Path
  /-- the audit whose replay the word belongs to, if it is one (R338) -/
  audit : Option Audit
  deriving DecidableEq, Repr

/-- The audit whose replay a team is. -/
def State.auditBy (s : State) (team : Nat) : Option Audit :=
  s.audits.find? fun a => (a.replay.map Prod.fst) == some team

/-- The task that a team runs: in a replay, that of its audit. -/
def State.taskOf (s : State) (t : Team) : Option Task :=
  if t.state == .replay then (s.auditBy t.uid).map Audit.ran else s.task? t.task

/-- A path in flight with what it belongs to. -/
def State.issueAt (s : State) (c : Cursor) : Option Issue :=
  (s.team? c.team).bind fun t =>
    (s.taskOf t).bind fun k =>
      (s.launch? t.launch).bind fun la =>
        t.gangs[c.gang]?.bind fun g =>
          (g.path? c.path).bind fun p =>
            some { cursor := c, team := t, task := k, launch := la, gang := g, path := p
                   audit := if t.state == .replay then s.auditBy t.uid else none }

/-- Whether the word belongs to a replay (R338). -/
def Issue.replays (i : Issue) : Bool := i.audit.isSome

/-- Whether the word's operations wait for grants: a replay never counts under DET (R338). -/
def Issue.det (i : Issue) : Bool := i.launch.det && !i.replays

/-- The issuing path, if one issues. -/
def State.issue (s : State) : Option Issue := s.cur.bind s.issueAt

/-- The word that issues, as fetched. -/
def Issue.word (i : Issue) : W32 := i.path.words.getD i.path.pos 0#32

/-- The address of a word of the clause. -/
def Path.addr (p : Path) (pos : Nat) : W64 := p.header + BitVec.ofNat 64 (4 * pos)

/-- The address of the first prefix of the word that issues, or of the word (R299). -/
def Path.prefixAddr (p : Path) : W64 := p.addr (p.prefixPos.getD p.pos)

/-- The address of the word after the clause (R136). -/
def Path.next (p : Path) : W64 := p.addr p.words.length

def Issue.thread (i : Issue) (l : Nat) : Thread := i.gang.threads.getD l Thread.blank

/-- Whether the guard passes in a thread (R142). -/
def Path.guardPasses (p : Path) (t : Thread) : Bool :=
  match p.guard with
  | none => true
  | some (q, n) => t.pred q.toNat != (n == 1#1)

/-- The active threads (R151), lowest lane first. -/
def Issue.active (i : Issue) : List Nat := (lanesOf i.path.lanes).filter fun l => i.path.guardPasses (i.thread l)

/-- One lane as the word sees it. -/
def Issue.lane (i : Issue) (l : Nat) : Lane :=
  { lane := l, gang := i.cursor.gang, core := (i.audit.map Audit.core).getD i.team.core, ord := ordinalOf i.launch i.task, thread := i.thread l }

/-! ## Latches and transactions -/

/-- Empty the A latch of an active slot (R237). -/
def State.emptyLatch (s : State) (core : Nat) (slot : Option Nat) : State :=
  match slot with
  | none => s
  | some k => s.modCore core fun c => { c with latches := c.latches.set k none }

/-- Empty the A latch of a team's gang (R237). -/
def State.emptyLatchOf (s : State) (team gang : Nat) : State :=
  match s.team? team with
  | some t => s.emptyLatch t.core (t.gangs[gang]?.bind Gang.activeSlot)
  | none => s

/-- The status word of Table 9.8. -/
def Tx.status (x : Tx) (state code : Nat) : W64 :=
  BitVec.ofNat 64 (code + (if code == 4 then x.user.toNat <<< 8 else 0) + (state <<< 16) + (x.reads.length <<< 32)
    + (x.writes.length <<< 48))

/-- End a transaction with a code (R220). -/
def Tx.finish (x : Tx) (code : Nat) : Tx := { x with ended := some (x.status 0 code) }

/-- Doom an open transaction; the first doom stands (R220). -/
def Tx.doomWith (x : Tx) (code : Nat) : Tx :=
  match x.ended, x.doom with
  | none, none => if x.sent then x else { x with doom := some code }
  | _, _ => x

/-! ## Scratch (R97, R209, R219) -/

/-- Bytes of a team's scratchpad. -/
def Team.scratchBytes (t : Team) : Nat := 16384 * t.scratchUnits

/-- Where the transaction log of a gang begins (R219). -/
def Team.logBase (t : Team) (g : Nat) : Nat := t.scratchBytes - 16384 * (g + 1)

/-- Whether an access meets the log region of a gang. -/
def Team.meetsLog (t : Team) (g o size : Nat) : Bool :=
  decide (16384 * (g + 1) ≤ t.scratchBytes) && decide (o < t.logBase g + 16384) && decide (t.logBase g < o + size)

/-- One byte of scratch: a log region that a transaction has used reads in the device's own layout, but for what has
been written since. -/
def Team.scratchByte (t : Team) (a : Nat) : Byte :=
  match t.logs.find? fun x => t.meetsLog x.gang a 1 && !x.kept.contains (a - t.logBase x.gang) with
  | some x => Config.logByte x.tick (a - t.logBase x.gang)
  | none => t.scratch.read a

def Team.scratchRead (t : Team) (o n : Nat) : List Byte := (List.range n).map fun k => t.scratchByte (o + k)

/-- The offsets of a log region that a write covers. -/
def LogArea.keep (x : LogArea) (base o n : Nat) : LogArea :=
  { x with kept := (List.range n).foldl (fun l k =>
      if base ≤ o + k ∧ o + k < base + 16384 ∧ !l.contains (o + k - base) then (o + k - base) :: l else l) x.kept }

/-- Write bytes of scratch. -/
def Team.scratchWrite (t : Team) (o : Nat) (bs : List Byte) : Team :=
  { t with scratch := t.scratch.writeBytes o bs, logs := t.logs.map fun x => x.keep (t.logBase x.gang) o bs.length }

/-- Whether a lane is a member of the gang's open transaction (R219). -/
def Gang.inTx (g : Gang) (l : Nat) : Bool :=
  match g.tx with
  | some x => x.ended.isNone && !x.sent && x.members.getLsbD l
  | none => false

def Gang.doom (g : Gang) (code : Nat) : Gang := { g with tx := g.tx.map fun x => x.doomWith code }

/-- Abort the gang's open transaction. -/
def Gang.abortTx (g : Gang) (code : Nat) : Gang :=
  { g with tx := g.tx.map fun x => if x.ended.isNone && !x.sent then x.finish code else x }

/-- A team takes no further part in an audit. -/
def Team.excuse (t : Team) : Team := { t with ineligible := true, audit := none }

/-! ## Killing a team: step 1 of R303 -/

/-- A thread whose team is killed waits for nothing. -/
def Thread.withdraw (t : Thread) : Thread := { t with blocked := .none, atRetire := .none, trapWait := .none, relHold := false }

/-- A gang whose team is killed issues nothing. -/
def Gang.withdraw (g : Gang) : Gang :=
  { (g.abortTx 6) with paths := [], threads := g.threads.map Thread.withdraw }

/-- Whether an operation of a team is a CLAIM that waits in an entry's queue. -/
def Op.waitsInQueue (o : Op) (team : Nat) : Bool :=
  match o.kind with
  | .claim _ _ _ none => o.team == team
  | _ => false

/-- Change an audit. -/
def State.modAudit (s : State) (uid : Nat) (f : Audit → Audit) : State :=
  { s with audits := s.audits.map fun a => if a.uid == uid then f a else a }

/-- A gang of a replay that is over. -/
def Gang.halt (g : Gang) : Gang :=
  { g.withdraw with threads := g.withdraw.threads.map fun t => { t with exited := true } }

/-- A replay is over before its task has come to its end: it has diverged, which is a mismatch (R338), or an error has
stopped it, and it is then made again (DESIGN CHOICE, log 43). -/
def State.endReplay (s : State) (team : Nat) (lost : Bool) : State :=
  match s.auditBy team with
  | none => s
  | some a =>
    let s := s.modAudit a.uid fun a => if lost then { a with lost := true } else { a with mismatch := true }
    { s with
      teams := s.teams.map fun t => if t.uid == team then { t with gangs := t.gangs.map Gang.halt, commands := [] } else t
      ops := s.ops.filter fun o => o.team != team
      walks := s.walks.filter fun w => w.team != team }

/-- A PROP that has started or joined a propagation has its record written whatever becomes of its thread (R252). -/
def PropRequest.stays (p : PropRequest) : Bool := !p.waitsForReady && p.record.isSome

/-- KillTeam, step 1 (R303): the team stops, its waits are withdrawn and its register results discarded. The rest
follows when its drain is complete. A replay's team only ends. -/
def State.killTeam (s : State) (uid : Nat) (k : Kill) : State :=
  match s.team? uid with
  | none => s
  | some t =>
    if t.kill.isSome then s
    else if t.state == .replay then s.endReplay uid true
    else
      { s with
        teams := s.teams.map fun t =>
          if t.uid == uid then
            { t with
              state := .killed, kill := some k, gangs := t.gangs.map Gang.withdraw, ineligible := true, audit := none }
          else t
        ops := (s.ops.filter fun o => !o.waitsInQueue uid).map fun o => if o.team == uid then { o with live := false } else o
        claims := s.claims.map fun e => { e with queue := e.queue.filter fun w => w.team != uid }
        props := s.props.filter fun p => p.team != uid || p.stays
        walks := s.walks.filter fun w => w.team != uid || w.command.isSome }

/-! ## Taking a trap, and returning from one (R299 to R301) -/

/-- Where a trap is raised: what TRAPPC becomes, the word's position and its clause's header. -/
structure TrapSite where
  pc : W64
  word : Nat
  header : W64
  deriving DecidableEq, Repr

/-- A kill that a trap of a thread leads to (R303, R306). -/
def killOf (g : Gang) (cause first : Nat) (info pc : W64) (lanes : W32) : Kill :=
  { cause, firstCause := first, info, addr := if cause == Cause.poison then info else 0#64, pc, lanes, kind := 0,
    slot := g.slot, silent := false }

/-- Entry changes of R299 in the thread itself. -/
def Thread.enterTrap (t : Thread) (site : TrapSite) (tr : Trap) : Thread :=
  { t with
    trapPc := site.pc
    trapCause := BitVec.ofNat 64 (site.word * 256 + tr.cause)
    trapInfo := tr.info
    resumeHeader := site.header
    trapDepth := true
    pc := t.trapVec + BitVec.ofNat 64 (64 * tr.cause)
    resume := none
    atRetire := .none
    trapWait := t.atRetire }

/-- TrapEntry of R299. A cause of class K kills the team; a second error kills it with DOUBLE; with no handler table
the cause kills it; otherwise the thread enters the handler. The task of a replay took no trap (R337), so one that traps
has diverged. -/
def State.trapEntry (s : State) (team gang lane : Nat) (site : TrapSite) (tr : Trap) (lanes : W32) : State :=
  match s.gang? team gang with
  | none => s
  | some g =>
    match g.threads[lane]? with
    | none => s
    | some t =>
      if ((s.team? team).map Team.state) == some .replay then s.endReplay team false
      else if isKillCause tr.cause then s.killTeam team (killOf g tr.cause 0 tr.info site.pc lanes)
      else if t.trapDepth then
        let first := field t.trapCause.toNat 0 8
        s.killTeam team (killOf g Cause.double first (BitVec.ofNat 64 first) t.trapPc lanes)
      else if t.trapVec = 0#64 then s.killTeam team (killOf g tr.cause 0 tr.info site.pc lanes)
      else
        let s := s.modThread team gang lane fun t => t.enterTrap site tr
        let s := s.modTeam team Team.excuse
        let s := if g.inTx lane then s.modGang team gang fun g => g.abortTx 6 else s
        if gang == 0 then s.emptyLatchOf team 0 else s

/-- A clause starts for a thread: none of its words' prefixes has been counted (R53). -/
def Thread.newClause (t : Thread) : Thread :=
  if t.trapDepth then { t with prefixDoneHandler := none } else { t with prefixDone := none }

/-- A thread begins a clause, or goes on in one: a wait that a trap interrupted stands again outside the handler. Where
the trapping word was the last of its clause, an ERET to the next header makes that clause run first, and the wait comes
when it retires; R160 names no such case (DESIGN CHOICE, log 57). -/
def Thread.beginPath (t : Thread) : Thread :=
  let t := { t with resume := none }
  if t.trapDepth || t.trapWait == .none then t else { t with atRetire := t.trapWait, trapWait := .none }

/-- Whether an address is that of no word (R81). -/
def unaddressed (a : W64) : Bool := a.toNat % 4 != 0 || (a.extractLsb' 0 56).signExtend 64 != a

/-- ERET in a thread in handler mode (R163, R301): handler mode ends, and the thread goes on at TRAPPC: as at a header,
or where it may lie inside the clause at ResumeHeader, whose length the vote that chooses the thread reads. -/
def Thread.returnFromTrap (t : Thread) : Thread :=
  let t' := { t with trapDepth := false, pc := t.trapPc, resume := none }
  let off := t.trapPc - t.resumeHeader
  if unaddressed t.trapPc then { t' with resume := some { word := t.trapPc, header := t.trapPc } }
  else if off.toNat % 4 == 0 && decide (0 < off.toNat) && decide (off.toNat ≤ 60) then
    { t' with resume := some { word := t.trapPc, header := t.resumeHeader } }
  else t'

/-! ## Lanes that leave a path -/

/-- Take a lane out of a path. -/
def State.leavePath (s : State) (c : Cursor) (l : Nat) : State :=
  s.modPath c fun p => { p with lanes := p.lanes &&& ~~~laneBit l }

/-- Where a trap of the word that issues is raised. -/
def Issue.site (i : Issue) : TrapSite :=
  { pc := i.path.prefixAddr, word := i.path.pos, header := i.path.header }

/-- Raise traps at a site, lowest lane first; each trapping thread leaves the path (R299). -/
def State.raiseAt (s : State) (c : Cursor) (site : TrapSite) (ts : List (Nat × Trap)) : State :=
  ts.foldl (fun s lt =>
    let same := (ts.filter fun x => x.2.cause == lt.2.cause).map Prod.fst
    (s.leavePath c lt.1).trapEntry c.team c.gang lt.1 site lt.2 (maskOf same)) s

/-- Raise the traps of a word. -/
def State.raiseAll (s : State) (i : Issue) (ts : List (Nat × Trap)) : State := s.raiseAt i.cursor i.site ts

/-- Park a lane at the word that issues: it leaves the path and retries the word later (R264, R315). -/
def State.parkLane (s : State) (i : Issue) (l : Nat) (b : Blocked) : State :=
  (s.leavePath i.cursor l).modThread i.cursor.team i.cursor.gang l fun t =>
    { t with blocked := b, resume := some { word := i.path.prefixAddr, header := i.path.header } }

/-- The path stays at the word that issues, which has not acted (R50, R214). -/
def State.hold (s : State) (i : Issue) : State := s.modPath i.cursor fun p => { p with held := true }

/-! ## Counting (R53, R166) -/

/-- Whether a resumed thread's prefixes at an address have been counted before. -/
def Thread.counted (t : Thread) (a : W64) : Bool :=
  if t.trapDepth then t.prefixDoneHandler == some a else t.prefixDone == some a

/-- Count n prefixes at an address. -/
def Thread.countPrefixes (t : Thread) (a : W64) (n : Nat) : Thread :=
  if t.trapDepth then { t with cnti := t.cnti + n, prefixDoneHandler := some a }
  else { t with cnti := t.cnti + n, prefixDone := some a }

/-- The word that issues has begun: its prefixes count, once. -/
def Gang.beginWord (g : Gang) (p : Path) : Gang :=
  if p.prefixes == 0 then g
  else
    let a := p.prefixAddr
    let fresh := (lanesOf p.lanes).filter fun l =>
      p.start == 0 || !(g.threads.getD l Thread.blank).counted a
    let g := g.mapLanes fresh fun _ t => t.countPrefixes a p.prefixes
    { g.modPath p.uid fun q => { q with prefixes := 0 } with clock := g.clock + (if fresh.isEmpty then 0 else p.prefixes) }

/-- The instructions that make a task ineligible for an audit (R337). -/
def auditExcludes (det : Bool) : Instr → Bool
  | .atom .. | .atomw .. | .atred .. | .cas .. | .claim .. | .fulfil .. | .relinq .. | .forget .. | .waitf .. | .txb
  | .propagate .. => true
  | .cntc .. => !det
  | _ => false

/-- Log what a team receives; a log of more than 4,096 entries drops the selection (R337). -/
def State.auditLog (s : State) (team : Nat) (e : AuditEntry) : State :=
  s.modTeam team fun t =>
    { t with audit := t.audit.map fun a =>
        if a.log.length < 4096 then { a with log := a.log ++ [e] } else { a with dropped := true } }

/-! ## What a task receives from outside (R337, R338) -/

/-- A replay takes the first entry of its log that answers to a description. -/
def State.takeEntry (s : State) (team : Nat) (want : AuditEntry → Bool) : State × Option AuditEntry :=
  match s.auditBy team with
  | none => (s, none)
  | some a =>
    match a.left.find? want with
    | some e => (s.modAudit a.uid fun a => { a with left := a.left.erase e }, some e)
    | none => (s, none)

/-- A thread receives a value from outside its registers and scratch: the auditor logs it, and a replay takes it from
the log. A replay that asks for more than was logged has diverged. -/
def State.receive (s : State) (i : Issue) (l : Nat) (v : W64) : State × W64 :=
  if !i.replays then (s.auditLog i.cursor.team (.result i.cursor.gang l v), v)
  else
    let mine := fun (e : AuditEntry) =>
      match e with
      | .result g k _ => g == i.cursor.gang && k == l
      | _ => false
    match s.takeEntry i.cursor.team mine with
    | (s, some (.result _ _ v)) => (s, v)
    | (s, _) => (s.endReplay i.cursor.team false, 0#64)

/-- Each read of the core operand by an active thread is logged (R337). -/
def State.logCore (s : State) (i : Issue) (n : Nat) : State :=
  if n == 0 then s
  else
    i.active.foldl (fun s l =>
      (List.range n).foldl (fun s _ => (s.receive i l (BitVec.ofNat 64 i.team.core)).1) s) s

/-- A load of a replay: its thread's next logged load, in program order, which gives its value if the address is the
same (R338). -/
def State.replayLoad (s : State) (i : Issue) (l : Nat) (va : W64) (give : W64 → Thread → Thread) : State :=
  let mine := ((s.auditBy i.cursor.team).map Audit.left).getD [] |>.filterMap fun e =>
    match e with
    | .load g k issued a v => if g == i.cursor.gang && k == l then some (issued, a, v) else none
    | _ => none
  match leastBy (fun x y => decide (x.1 < y.1)) mine with
  | some (issued, a, v) =>
    if a == va then
      ((s.takeEntry i.cursor.team fun e => e == .load i.cursor.gang l issued a v).1).modThread i.cursor.team i.cursor.gang l
        (give v)
    else s.endReplay i.cursor.team false
  | none => s.endReplay i.cursor.team false

/-- The word that issues begins. -/
def State.beginWord (s : State) (i : Issue) : State :=
  let s := s.modGang i.cursor.team i.cursor.gang fun g => g.beginWord i.path
  match decode i.word with
  | .ok w => if auditExcludes i.launch.det w then s.modTeam i.cursor.team Team.excuse else s.logCore i (coreReads w)
  | .error _ => s

/-- One word has retired in the lanes of a path. -/
def Gang.countWord (g : Gang) (lanes : W32) : Gang :=
  { g.mapLanes (lanesOf lanes) fun _ t => { t with cnti := t.cnti + 1 } with clock := g.clock + 1 }

/-! ## Stores and loads still under way (R86, R87, R91) -/

/-- Whether an operation has yet to bind a value that it reads: a load, an atomic or a commit. -/
def OpKind.reads : OpKind → Bool
  | .load r => r.bound.isNone
  | .atomic _ => true
  | .txc _ result => result.isNone
  | _ => false

/-- Whether an operation is such a read of a thread. -/
def Op.pendingRead (o : Op) (team gang lane : Nat) : Bool :=
  o.team == team && o.gang == gang && o.lane == lane && o.kind.reads

/-- Whether every read of a thread has bound. Nothing that another thread can observe may leave the core before it
(R87, and No thin air of R101). -/
def State.readsBound (s : State) (team gang lane : Nat) : Bool := !s.ops.any fun o => o.pendingRead team gang lane

/-- The same for the reads before a place in the thread's order. -/
def State.readsBoundBefore (s : State) (team gang lane q : Nat) : Bool :=
  !s.ops.any fun o => decide (o.seq < q) && o.pendingRead team gang lane

/-- Whether the store path of a core holds a store or reduction of a thread. -/
def State.storing (s : State) (core team gang lane : Nat) : Bool :=
  (s.core core).stores.any fun x => x.command.isNone && x.team == team && x.gang == gang && x.lane == lane

/-- Whether the stores of a core's path below a name have been applied to the L1. -/
def State.applied (s : State) (core mark : Nat) : Bool :=
  (s.core core).stores.all fun x => x.deferred || decide (mark ≤ x.uid)

/-- Whether nothing is in a core's store path. -/
def State.pathEmpty (s : State) (core : Nat) : Bool := (s.core core).stores.all StoreOp.deferred

/-- The name above a thread's stores in its core's path. -/
def State.ownMark (s : State) (core team gang lane : Nat) : Nat :=
  ((s.core core).stores.filter fun x => x.command.isNone && x.team == team && x.gang == gang && x.lane == lane).foldl
    (fun m x => max m (x.uid + 1)) 0

/-- What a release by a thread puts before what it makes visible afterwards: its own stores and those it has seen
(R89). -/
def State.releaseMark (s : State) (core team gang lane : Nat) : Nat :=
  max (s.ownMark core team gang lane) ((s.thread? team gang lane).getD Thread.blank).seen

/-- A release of any scope by a thread: its later stores leave after its reads have bound, and what it has stored or
seen stays before them (R89). -/
def State.releaseThread (s : State) (core team gang lane : Nat) : State :=
  let m := s.releaseMark core team gang lane
  s.modThread team gang lane fun t => { t with relStore := max t.relStore m, relRead := t.memSeq }

/-- Whether an operation is a CLAIM or TXC whose result may acquire, or has yet to come (R95). A CLAIM that stands in its
entry's queue holds nothing back in a team that drains (R50), nor under DET, where its gang could then never park (R54);
nor does one that is decided there and waits for a grant after the restore. -/
def Op.mayAcquire (o : Op) (running det : Bool) : Bool :=
  match o.kind with
  | .claim _ _ _ none => running && !det
  | .claim _ _ _ (some (code, _)) => code == 0 && (running || !(det && o.queued))
  | .txc _ result => result.isNone
  | _ => false

/-- Whether a pending CLAIM or TXC of a thread comes before an access (R95). A killed team never has its result (R303). -/
def State.acquires (s : State) (team gang lane q : Nat) : Bool :=
  match s.team? team with
  | none => false
  | some t =>
    (t.state == .running || t.state == .draining) && s.ops.any fun o =>
      o.team == team && o.gang == gang && o.lane == lane && decide (o.seq < q)
        && o.mayAcquire (t.state == .running) (s.detLaunch t.launch)

/-- Whether a thread's reads have bound, what its CLAIMs and TXCs return has come, and its stores, and those it has seen,
have been applied to the L1. -/
def State.drained (s : State) (core team gang lane : Nat) : Bool :=
  let th := (s.thread? team gang lane).getD Thread.blank
  s.readsBound team gang lane && !s.acquires team gang lane th.memSeq && !s.storing core team gang lane && s.applied core th.seen

/-- Whether a lane of a word must wait for stores that it has seen, or for what a pending CLAIM or TXC returns. -/
def State.behind (s : State) (i : Issue) (ls : List Nat) : Bool :=
  ls.any fun l => !s.applied i.team.core (i.thread l).seen
    || s.acquires i.cursor.team i.cursor.gang l (i.thread l).memSeq

/-- Whether a release by a gang that waits later for its stores must wait now, for a lane's reads or for what a pending
CLAIM or TXC returns. -/
def State.behindReads (s : State) (i : Issue) (ls : List Nat) : Bool :=
  ls.any fun l => !s.readsBound i.cursor.team i.cursor.gang l
    || s.acquires i.cursor.team i.cursor.gang l (i.thread l).memSeq

/-- Whether a release at device scope must wait: the gang's stores are not acknowledged, or a lane has reads that have
not bound, has seen stores that are not applied, or has a CLAIM or TXC whose result has yet to come (R87, R89, R101,
Table 4.3). -/
def State.releaseWaits (s : State) (i : Issue) (ls : List Nat) : Bool :=
  !ls.isEmpty && (i.gang.unacked != 0 || s.behindReads i ls || ls.any fun l => !s.applied i.team.core (i.thread l).seen)

/-- Threads that a WAITM has released go on once every member's stores have been applied (R91). -/
def State.settleReleases (s : State) (team gang : Nat) : State :=
  match s.team? team with
  | none => s
  | some t =>
    s.modGang team gang fun g =>
      { g with threads := g.threads.map fun th =>
          match th.blocked with
          | .released ms => if (lanesOf ms).all fun l => s.drained t.core team gang l then { th with blocked := .none } else th
          | _ => th }

/-! ## Kinds of words -/

/-- The fn field of a word in R format. -/
def fnField (w : W32) : Nat := field w.toNat 21 4

/-- Whether a word is one of the flagged operations of R138, by the op and fn that name it in Table 6.8. -/
def flaggedWord (w : W32) : Bool :=
  let op := (major w).toNat
  (decide (0x48 ≤ op) && decide (op ≤ 0x4C)) || op == 0x55 || op == 0x56 || op == 0x62 || op == 0x63
    || ((op == 0x58 || op == 0x66 || op == 0x67) && decide (fnField w < 2)) || (op == 0x61 && fnField w == 1)

/-- The control transfers and EXIT, which stand only as the last word (R135). -/
def endsClause (w : W32) : Bool :=
  let op := (major w).toNat
  (decide (1 ≤ op) && decide (op ≤ 9)) || (op == 0x10 && fnField w == 3)

/-- The words that no REP may precede (R143). -/
def refusesRep (w : W32) : Bool := endsClause w || (major w).toNat == 0x0C || (major w).toNat == 0x0F

/-- The flag that the word that issues sets, if it is a flagged operation (R138). -/
def Path.flag (p : Path) : Option Nat := flagOfHeader (p.words.getD 0 0#32) p.flagged

/-- Clear the flags of a gang whose operations have all completed (R138). -/
def State.settleFlags (s : State) (team gang : Nat) : State :=
  s.modGang team gang fun g =>
    { g with flags := BitVec.ofNat 12 ((List.range 12).foldl (fun acc f =>
        if g.flags.getLsbD f && (g.busy f || s.ops.any fun o => o.holds team gang f) then acc + (1 <<< f) else acc) 0) }

/-- A flagged word issues: its flag is set, and stays busy while repetitions remain (R138). -/
def Gang.issueFlag (g : Gang) (p : Path) : Gang :=
  match p.flag with
  | none => g
  | some f =>
    let more := match p.rep with
      | some r => decide (r.done + 1 < r.count)
      | none => false
    (g.setFlag f).modPath p.uid fun q => { q with busyFlag := if more then some f else none }

/-! ## The end of a word and of a clause (R25, R28, R136, R141) -/

/-- Set REPSTATE in the threads of a path (Table 3.6). -/
def Gang.setRepState (g : Gang) (lanes : W32) (remaining done : Nat) : Gang :=
  g.mapLanes (lanesOf lanes) fun _ t => { t with repState := BitVec.ofNat 64 (remaining <<< 7 + done) }

/-- REPSTATE after a repetition: the threads that it has blocked keep theirs while they wait (R141). -/
def Gang.endRepetition (g : Gang) (lanes : W32) (remaining done : Nat) : Gang :=
  g.mapLanes (lanesOf lanes) fun _ t =>
    let v : W64 := BitVec.ofNat 64 (remaining <<< 7 + done)
    if t.blocked == .none then { t with repState := v } else { t with repNext := some v }

/-- The lanes of a path whose threads have become blocked. -/
def Gang.blockedLanes (g : Gang) (p : Path) : List Nat :=
  (lanesOf p.lanes).filter fun l => (g.threads.getD l Thread.blank).blocked != .none

/-- Blocked threads leave the path; they go on at its next word when their wait ends. -/
def Gang.detach (g : Gang) (p : Path) : Gang :=
  let out := g.blockedLanes p
  let g := g.mapLanes out fun _ t => { t with resume := some { word := p.prefixAddr, header := p.header } }
  let lanes := p.lanes &&& ~~~maskOf out
  if lanes = 0#32 then g.dropPath p.uid else g.modPath p.uid fun _ => { p with lanes }

/-- The distinct places of the live threads of a gang: the entries of its PC table (R28). -/
def Gang.places (g : Gang) : List W64 := ((g.threads.filter fun t => !t.exited).map Thread.place).dedup

/-- A clause that leaves more than 8 distinct PCs puts the gang into serial mode (R28). The threads' counters begin at 0
there, and the PC table keeps its own through it; R28 states neither (DESIGN CHOICE, log 56). -/
def Gang.checkSerial (g : Gang) : Gang :=
  if !g.serial && g.places.length > 8 then { g with serial := true, laneAges := List.replicate 32 0 } else g

/-- A thread that waits for nothing else reaches the wait of its retired clause (R160, R249). -/
def Thread.reachWait (t : Thread) : Thread :=
  if t.atRetire != .none && t.blocked == .none then { t with blocked := t.atRetire, atRetire := .none } else t

/-- The next PC of a thread whose clause retires, and the wait it then reaches (R136); a thread that the clause's last
word has blocked reaches it afterwards. -/
def Thread.retireClause (t : Thread) (taken : Bool) (next : W64) : Thread :=
  (if taken then t else { t with pc := next, resume := none }).reachWait

/-- A clause retires: its threads take their next PCs and the path dissolves (R25, R136). -/
def Gang.retireClause (g : Gang) (p : Path) : Gang :=
  (((g.mapLanes (lanesOf p.lanes) fun l t => t.retireClause (p.taken.getLsbD l) p.next).dropPath p.uid)).checkSerial

/-- The path moves past its word. -/
def Gang.nextWord (g : Gang) (p : Path) : Gang :=
  let p' := { p with
    pos := p.pos + 1, guard := none, rep := none, prefixPos := none, prefixes := 0, busyFlag := none, held := false,
    grants := [], fetched := [], unmapped := [], flagged := p.flagged + (if p.pos != 0 && flaggedWord (p.words.getD p.pos 0#32) then 1 else 0) }
  if p'.pos ≥ p'.words.length then g.retireClause p' else g.detach p'

/-- A word has acted in the threads that are still in the path: it counts, and the path goes on to the next repetition,
word or clause. A path that no thread is left in dissolves; its clause does not retire, and so a gang whose threads trap or
park at more than 8 places is in serial mode only once a clause retires (DESIGN CHOICE, log 56). -/
def Gang.retireWord (g : Gang) (puid : Nat) : Gang :=
  match g.path? puid with
  | none => g
  | some p =>
    if p.lanes = 0#32 then g.dropPath puid
    else
      let g := g.countWord p.lanes
      match p.rep with
      | none => g.nextWord p
      | some r =>
        if r.done + 1 < r.count then
          (g.endRepetition p.lanes (r.count - (r.done + 1)) (r.done + 1)).detach
            { p with rep := some { r with done := r.done + 1 }, held := false, grants := [], fetched := [], unmapped := [] }
        else (g.endRepetition p.lanes 0 0).nextWord p

/-! ## Where a path stops (R50) -/

/-- The words that a FENCE REL or AR of their thread can hold: the stores, reductions and atomics of any kind, GO, FULFIL,
SPAWN and SPAWNR (R89, R214), and what writes scratch or its slots (R97, R256). -/
def heldByFence : Instr → Bool
  | .std .. | .stw .. | .sth .. | .stb .. | .stx .. | .call .. | .calli .. | .edit .. | .sts .. | .atom .. | .atomw ..
  | .atred .. | .cas .. | .goCopy .. | .goGather .. | .fulfil .. | .spawn .. | .spawnr .. | .rbgive .. | .rbtake .. => true
  | _ => false

/-- The words at which a fence, or an order of spawns, can hold a path; a FENCE itself waits for reads. -/
def pausesAt : Instr → Bool
  | .fence .. => true
  | i => heldByFence i

/-- Whether a path stands at a pre-emption point inside its clause: between two repetitions, at a word that waits for
its grant, or at a word that is held. -/
def Path.pausable (p : Path) : Bool :=
  (match p.rep with
   | some r => decide (0 < r.done)
   | none => false)
  || (p.held && !p.grants.isEmpty)
  || (p.held && p.walks.isEmpty &&
      match decode (p.words.getD p.pos 0#32) with
      | .ok i => pausesAt i
      | .error _ => false)

/-- Whether a team runs, for its launch or as a replay. -/
def Team.runs (t : Team) : Bool := t.state == .running || t.state == .replay

/-- Whether a gang can use an active slot: its team runs, or drains and a path of it has yet to come to a point where it
stops (R50). -/
def Team.usesSlot (t : Team) (g : Gang) : Bool :=
  t.runs || (t.state == .draining && !g.paths.all Path.pausable)

/-- The oldest PENDING-READY gang of a core, one of a team that is being zeroed among them (R47). -/
def State.oldestReady (s : State) (core : Nat) : Option (Nat × Nat) :=
  let gs := s.teams.flatMap fun t =>
    if t.core == core then
      (t.gangs.mapIdx fun k g => (g, t.uid, k)).filter fun x =>
        x.1.residency == .pendingReady && (t.state == .zeroing || t.usesSlot x.1)
    else []
  (leastBy (fun x y => decide (x.1.age < y.1.age)) gs).map fun x => x.2

/-- A vacated active slot goes to the oldest PENDING-READY gang (Table 2.8). -/
def State.giveSlot (s : State) (core slot : Nat) : State :=
  match s.oldestReady core with
  | none => s
  | some (t, g) => s.modGang t g fun x => { x with residency := .active, activeSlot := some slot }

/-- A gang leaves its active slot, whose A latch empties (R237), for a place among the pending or the done. -/
def State.vacate (s : State) (team gang : Nat) (r : Residency) : State :=
  match s.team? team, (s.gang? team gang).bind Gang.activeSlot with
  | some t, some k =>
    let s := ((s.emptyLatch t.core (some k)).modGang team gang fun g => { g with residency := .pendingWait, activeSlot := none }).giveSlot
      t.core k
    s.modGang team gang fun g => { g with residency := r }
  | _, _ => s.modGang team gang fun g => { g with residency := r, activeSlot := none }

/-- Whether a clause that retires lets its gang move to the pending set (R137, R161). -/
def State.yieldGang (s : State) (i : Issue) (p : Path) : State :=
  let asks := p.yielded || p.words.getD 0 0#32 &&& 8#32 != 0#32
  if asks && !i.launch.det && i.gang.activeSlot.isSome && (s.oldestReady i.team.core).isSome
      && Config.choice s.tick % 2 == 1 then
    s.vacate i.cursor.team i.cursor.gang .pendingReady
  else s

/-- The instruction cache of a core is invalidated (R165). -/
def State.invalidateCode (s : State) (core : Nat) : State := s.modCore core fun c => { c with icache := [] }

/-- What a clause does to its core and gang as it retires (R137, R161, R165); p is its path before. -/
def State.afterClause (s : State) (i : Issue) (p : Option Path) : State :=
  match p with
  | none => s
  | some p =>
    if p.pos + 1 ≥ p.words.length && (s.path? i.cursor).isNone then
      (if p.icinv then s.invalidateCode i.team.core else s).yieldGang i p
    else s

/-! ## Regroup waits that nothing can end (R311) -/

/-- Whether a thread waits at a REWARP. -/
def Thread.atRewarp (t : Thread) : Bool :=
  match t.blocked with
  | .rewarp .. => true
  | _ => false

/-- Whether a thread waits for what only its team can do. -/
def Thread.teamWait (t : Thread) : Bool :=
  match t.blocked with
  | .waitm _ | .barrier .. | .regBlock .. => true
  | _ => false

/-- The live threads of a team, with their places. -/
def Team.liveThreads (t : Team) : List (Nat × Nat × Thread) :=
  (t.gangs.mapIdx fun g x => x.threads.mapIdx fun l th => (g, l, th)).flatten.filter fun x => !x.2.2.exited

/-- Raise CONVERGE in a thread that waits at a REWARP. -/
def State.convergeTrap (s : State) (team gang lane : Nat) : State :=
  match (s.thread? team gang lane).map Thread.blocked with
  | some (.rewarp _ _ pc word header lanes) =>
    (s.modThread team gang lane fun t => { t with blocked := .none }).trapEntry team gang lane { pc, word, header }
      { cause := Cause.converge, info := lanes.setWidth 64 } (laneBit lane)
  | _ => s

/-- Every live thread waits at a REWARP or at a wait that only the team can end, and not all at a REWARP: those at a
REWARP raise CONVERGE. -/
def State.checkConverge (s : State) (team : Nat) : State :=
  match s.team? team with
  | none => s
  | some t =>
    let ls := t.liveThreads
    if t.kill.isNone && ls.all (fun x => x.2.2.atRewarp || x.2.2.teamWait) && ls.any (fun x => x.2.2.atRewarp)
        && ls.any fun x => x.2.2.teamWait then
      (ls.filter fun x => x.2.2.atRewarp).foldl (fun s x => s.convergeTrap team x.1 x.2.1) s
    else s

/-- The word that issues has retired. -/
def State.retireWord (s : State) (i : Issue) : State :=
  (((s.modGang i.cursor.team i.cursor.gang fun g => g.retireWord i.cursor.path).settleFlags i.cursor.team
    i.cursor.gang).afterClause i (s.path? i.cursor)).checkConverge i.cursor.team

/-- A prefix word has issued: the path moves to the word it prefixes. Prefixes count later (R53). -/
def Gang.prefixStep (g : Gang) (p : Path) (f : Path → Path) : Gang :=
  g.modPath p.uid fun q =>
    f { q with pos := p.pos + 1, prefixPos := some (p.prefixPos.getD p.pos), prefixes := p.prefixes + 1, held := false }

/-! ## The shape of a word's meaning -/

/-- A word: the active threads whose checks pass perform it, the others trap, and the word retires (R313). -/
def runWord (s : State) (i : Issue) (check : Lane → Option Trap) (act : List Nat → State → State) : State :=
  let ok := i.active.filter fun l => (check (i.lane l)).isNone
  let bad := i.active.filterMap fun l => (check (i.lane l)).map fun t => (l, t)
  ((act ok (s.beginWord i)).raiseAll i bad).retireWord i

/-- The trap of a thread at a word that takes one lane's value for its path: that lane's is every active thread's (R314). -/
def Issue.pathTrap (check : Lane → Option Trap) (i : Issue) (pick : Option Nat) (l : Lane) : Option Trap :=
  (pick.bind fun k => check (i.lane k)).or (check l)

/-- A word that acts in each active thread on that thread alone. -/
def threadWord (s : State) (check : Lane → Option Trap) (act : Lane → Thread → Thread) :
    Host.Outcome State Fault Refusal :=
  match s.issue with
  | none => .fault .noIssuingPath
  | some i =>
    .next (runWord s i check fun ok s =>
      s.modGang i.cursor.team i.cursor.gang fun g => g.mapLanes ok fun l t => act (i.lane l) t)

/-- A word that acts once for its path, or across its threads. -/
def pathWord (s : State) (check : Issue → Lane → Option Trap) (act : Issue → List Nat → State → State) :
    Host.Outcome State Fault Refusal :=
  match s.issue with
  | none => .fault .noIssuingPath
  | some i => .next (runWord s i (check i) (act i))

/-- The word the issuing path holds, for TRAPINFO; zero when no path issues. -/
def State.curWord (s : State) : W32 :=
  match s.issue with
  | some i => i.word
  | none => 0#32

/-- The position of the word that a REP at a position repeats. -/
def Path.repeated (p : Path) (pos : Nat) : Nat :=
  if (major (p.words.getD (pos + 1) 0#32)).toNat == 0x0B then pos + 2 else pos + 1

/-- A fault of a REP itself or of its steps: it is raised in every active thread at the repeated word, before the first
repetition (R314). -/
def State.raiseRep (s : State) (i : Issue) (t : Trap) : State :=
  let at' := { i.path with pos := i.path.repeated i.path.pos, prefixPos := some (i.path.prefixPos.getD i.path.pos) }
  (s.raiseAll { i with path := at' } (i.active.map fun l => (l, t))).modGang i.cursor.team i.cursor.gang fun g =>
    g.dropPath i.cursor.path

/-- A word with no meaning as an instruction raises ILLEGAL in every active thread (R145), a REP at the word that it
repeats (R314). -/
def illegalWord (s : State) : Host.Outcome State Fault Refusal :=
  match s.issue with
  | none => .fault .noIssuingPath
  | some i =>
    if (major i.word).toNat == 0x0A then .next (s.raiseRep i (illegalTrap i.word))
    else threadWord s (fun _ => some (illegalTrap s.curWord)) fun _ t => t

/-- A word that is ILLEGAL when a condition on its fields fails, and otherwise meets the checks of its fields. -/
def fieldCheck (w : W32) (legal : Bool) (fs : List Field) (l : Lane) : Option Trap :=
  if legal then l.fieldTrap w fs else some (illegalTrap w)

/-- Write a result. -/
def setReg (l : Lane) (d : BitVec 7) (v : W64) (t : Thread) : Thread := t.write (l.dest d) v

/-- Threads receive results that the auditor logs. -/
def State.giveLogged (s : State) (i : Issue) (ls : List Nat) (d : BitVec 7) (v : Nat → W64) : State :=
  ls.foldl (fun s l =>
    match s.receive i l (v l) with
    | (s, x) => s.modThread i.cursor.team i.cursor.gang l fun t => setReg (i.lane l) d x t) s

end Sys2Proof.Machine
end

