-- ==== Sys2Proof/Machine/Records.lean ====
section
/-! DEFINITION. Machine-check records (R306, R307), MSI-X, and marking a launch failed or for replay (R305). -/

namespace Sys2Proof.Machine

/-! ## Writes at the home, and those who watch the line (R215) -/

/-- A write has reached lines first to last: a blocked WAITF on one of them observes again. -/
def Thread.touch (t : Thread) (first last : Nat) : Thread :=
  match t.blocked with
  | .waitf c va pa v d r pc =>
    { t with blocked := .waitf c va pa v d (r || (decide (first ≤ pa / 256) && decide (pa / 256 ≤ last))) pc }
  | _ => t

/-- Writes have reached lines. Under DET a wait observes again after a grant alone (R54). -/
def State.touchLines (s : State) (first last : Nat) : State :=
  { s with teams := s.teams.map fun t =>
      if s.detLaunch t.launch then t
      else { t with gangs := t.gangs.map fun g => { g with threads := g.threads.map fun th => th.touch first last } } }

def State.touchLine (s : State) (pa : Nat) : State := s.touchLines (pa / 256) (pa / 256)

/-- Bytes written at their home slice. -/
def State.deviceWrite (s : State) (pa : Nat) (bytes : List Byte) : State := (s.homeWrite pa bytes).touchLine pa

/-- A span zeroed at its home slices, with those who watch its lines. -/
def State.zeroSpan (s : State) (pa n : Nat) : State :=
  (s.homeZero pa n).touchLines (pa / 256) ((pa + n - 1) / 256)

/-- Bytes written at their home slices, of any number of lines. -/
def State.writeSpan (s : State) (pa : Nat) (bytes : List Byte) : State :=
  (s.homeWrite pa bytes).touchLines (pa / 256) ((pa + bytes.length - 1) / 256)

/-! ## Records -/

/-- The device signals an MSI-X vector (R265). -/
def State.signal (s : State) (vector : Nat) : State := { s with msix := s.msix ++ [vector] }

/-- A machine-check record before its seq is known (Table 18.4). -/
structure McRecord where
  info : W64
  pc : W64
  launchId : W64
  ordinal : W64
  addr : W64
  lanes : W32
  firstCause : Nat
  cause : Nat
  kind : Nat
  action : Nat
  core : Nat
  slot : Nat
  ctx : Nat
  deriving DecidableEq, Repr

/-- A record with nothing but a kind, an action and a cause. -/
def McRecord.blank (kind action cause : Nat) : McRecord :=
  { info := 0#64, pc := 0#64, launchId := 0#64, ordinal := 0#64, addr := 0#64, lanes := 0#32, firstCause := 0, cause, kind,
    action, core := 0, slot := 0, ctx := 0 }

/-- The low doubleword of a record. -/
def McRecord.place (r : McRecord) : Nat := r.ctx % 32 * 2 ^ 44 + r.slot % 64 * 2 ^ 49 + r.core % 512 * 2 ^ 55

/-- The doubleword of causes, kind and action, with the lanes above. -/
def McRecord.what (r : McRecord) : Nat :=
  r.action % 16 * 2 ^ 4 + r.kind % 256 * 2 ^ 8 + r.cause % 256 * 2 ^ 16 + r.firstCause % 256 * 2 ^ 24
    + r.lanes.toNat * 2 ^ 32

/-- The 64 bytes of a record. -/
def McRecord.bytes (r : McRecord) (seq : Nat) : List Byte :=
  [r.place, r.what, seq, r.addr.toNat, r.ordinal.toNat, r.launchId.toNat, r.pc.toNat, r.info.toNat].flatMap (bytesOfNat 8)

/-- Whether the ring takes a record (R307). -/
def McRing.hasRoom (m : McRing) : Bool := m.configured && (m.tail + 1) % m.entries != m.head

/-- Write a record, or drop and count it (R307). -/
def State.writeRecord (s : State) (r : McRecord) : State :=
  if s.mc.hasRoom then
    let s' := s.writeSpan (s.mc.base + 64 * s.mc.tail) (r.bytes (s.mc.seq + 1))
    ({ s' with mc := { s.mc with tail := (s.mc.tail + 1) % s.mc.entries, seq := s.mc.seq + 1 } }).signal s.mc.vector
  else { s with mc := { s.mc with drop := s.mc.drop + 1 } }

/-! ## Failing a launch (R305) -/

/-- Whether a launch that has failed is still to be replayed: after two replays a further failure fails it. -/
def Launch.replayable (l : Launch) : Bool := l.idempotent && decide (l.replays < 2)

/-- A launch meets a failure that its traces and tasks do not absorb: it is marked for replay or failed; its first
failure's cause stands. -/
def Launch.markFailed (l : Launch) (cause : Nat) : Launch :=
  { l with failCause := l.failCause.or (some cause), replayWanted := l.replayWanted || l.replayable }

/-- The launch fails for good with a cause of delivery L (R308, R309): never replayed, its record already written. -/
def Launch.failFinally (l : Launch) (cause : Nat) : Launch :=
  { l with failCause := some cause, replayWanted := false, recordWritten := true }

/-! ## Corrected errors of a core's arrays (R353) -/

/-- Corrected errors per window at which an array is declared to be failing (Table 21.5). -/
def arrayThreshold : CoreArray → Nat
  | .pool => 16
  | .l1 => 64
  | .icache => 64
  | .matrix => 4

/-- The count of an array. -/
def Core.arrayCount (c : Core) (a : CoreArray) : ErrorCount :=
  (c.errors.find? fun e => e.array == a).getD { array := a, total := 0, nominal := false, lastWindow := 0 }

/-- Put a count in place of that of its array. -/
def Core.setCount (c : Core) (x : ErrorCount) : Core :=
  if c.errors.any fun e => e.array == x.array then
    { c with errors := c.errors.map fun e => if e.array == x.array then x else e }
  else { c with errors := c.errors ++ [x] }

/-- Past half an array's threshold the margin is withdrawn at once. -/
def Core.checkMargin (c : Core) (a : CoreArray) (count : Nat) : Core :=
  { c with marginWithdrawn := c.marginWithdrawn || decide (arrayThreshold a < 2 * count) }

/-- An array of a core has corrected an error. -/
def Core.countError (c : Core) (a : CoreArray) : Core :=
  let x := c.arrayCount a
  (c.setCount { x with total := x.total + 1 }).checkMargin a (x.total + 1)

end Sys2Proof.Machine
end

