-- ==== Sys2Proof/Machine/Translate.lean ====
section
/-! DEFINITION. Address translation (R81, R83, R259 to R263): page-table entries, walks, the TLB, permissions, and the
walks that a word waits for. -/

namespace Sys2Proof.Machine

/-! ## Page-table entries (Table 12.1) -/

def pteValid (e : W64) : Bool := e.getLsbD 0
def pteSize (e : W64) : Nat := field e.toNat 1 2
def pteR (e : W64) : Bool := e.getLsbD 3
def pteW (e : W64) : Bool := e.getLsbD 4
def pteX (e : W64) : Bool := e.getLsbD 5
def pteTracked (e : W64) : Bool := e.getLsbD 6
def pteDerived (e : W64) : Bool := e.getLsbD 6 && e.getLsbD 7
def pteZoa (e : W64) : Bool := e.getLsbD 8
def pteCache (e : W64) : Nat := field e.toNat 9 2
def pteOwn (e : W64) : Nat := field e.toNat 11 2
def pteCtx (e : W64) : Nat := field e.toNat 56 5
/-- The physical address of the next table or of the page frame. -/
def pteAddr (e : W64) : Nat := field e.toNat 13 39 * 2 ^ 13

/-- Bytes of the page that a leaf of a size code maps. -/
def leafBytes (size : Nat) : Nat :=
  match size with
  | 1 => 2 ^ 16
  | 2 => 2 ^ 26
  | _ => 2 ^ 36

/-- The size code that a level permits for a leaf (R259). -/
def leafAt (level size : Nat) : Bool := (level == 1 && size == 3) || (level == 2 && size == 2) || (level == 3 && size == 1)

/-- Whether a valid entry is bad at its level (R260). A reserved own value is bad with zoa = 0 too, where R263 says that own
is ignored: the two rules leave it open (DESIGN CHOICE, log 26). -/
def pteBad (e : W64) (level : Nat) : Bool :=
  field e.toNat 61 3 != 0 || field e.toNat 52 4 != 0 ||
    if pteSize e == 0 then level == 3 || field e.toNat 3 10 != 0
    else
      !leafAt level (pteSize e) || decide (pteCtx e > 16) || decide (pteCache e > 1) || pteOwn e == 3
        || pteAddr e % leafBytes (pteSize e) != 0 || (pteTracked e && e.getLsbD 51)

/-- Bits [63:56] copy bit 55 (R81). -/
def canonical (va : W64) : Bool := (va.extractLsb' 0 56).signExtend 64 == va

/-! ## Walks (R261) -/

/-- Where a walk ends: at a level with a reason of Table 12.3, or at a leaf that stands at a physical address. -/
inductive WalkEnd where
  | fault (level reason : Nat)
  | leaf (entryAddr level : Nat) (entry : W64)
  deriving DecidableEq, Repr

/-- Read the levels from a table on. A table that is not wholly in device memory, or an entry in a poisoned sector,
counts as a bad entry (DESIGN CHOICE, log 26). -/
def State.walkFrom (s : State) (va : W64) : List Nat → Nat → WalkEnd
  | [], _ => .fault 3 2
  | level :: rest, table =>
    if table + 8192 > deviceBytes then .fault level 2
    else
      let a := table + 8 * field va.toNat (46 - 10 * level) 10
      let e : W64 := BitVec.ofNat 64 (s.homeRead a 8)
      if s.poisonedAt a 8 then .fault level 2
      else if !pteValid e then .fault level 1
      else if pteBad e level then .fault level 2
      else if pteSize e == 0 then s.walkFrom va rest (pteAddr e)
      else .leaf a level e

/-- Walk a context's tables (R259). A context that CTXSET has not configured has no tables: its walks meet an invalid
entry at level 0 (DESIGN CHOICE, log 26). -/
def State.walkTables (s : State) (ctx : Nat) (va : W64) : WalkEnd :=
  match s.context? ctx with
  | none => .fault 0 1
  | some c => s.walkFrom va [0, 1, 2, 3] c.table

/-! ## The TLB -/

/-- The entry that translates an address on a core (R261). -/
def State.tlbEntry? (s : State) (core ctx : Nat) (va : W64) : Option TlbEntry :=
  (s.core core).tlb.find? fun e => e.ctx == ctx && decide (e.base ≤ va.toNat) && decide (va.toNat < e.base + e.size)

/-- Put a translation into a core's TLB of 2,048 entries. -/
def State.tlbInstall (s : State) (core ctx : Nat) (va : W64) (leaf : W64) : State :=
  let size := leafBytes (pteSize leaf)
  let e : TlbEntry := { ctx, base := va.toNat / size * size, size, leaf }
  s.modCore core fun c =>
    let kept := if c.tlb.length < 2048 then c.tlb else c.tlb.eraseIdx (Config.choice s.tick % 2048)
    { c with tlb := e :: kept }

/-! ## Permission and physical address -/

/-- What an access needs of its leaf (R261). -/
structure Need where
  r : Bool
  w : Bool
  x : Bool
  deriving DecidableEq, Repr

def Need.load : Need := { r := true, w := false, x := false }
def Need.store : Need := { r := false, w := true, x := false }
def Need.atomic : Need := { r := true, w := true, x := false }
def Need.fetch : Need := { r := false, w := false, x := true }
def Need.nothing : Need := { r := false, w := false, x := false }

/-- Whether a leaf permits an access of a context. -/
def leafPermits (leaf : W64) (ctx : Nat) (n : Need) : Bool :=
  (pteCtx leaf == ctx || pteCtx leaf == 16) && (!n.r || pteR leaf) && (!n.w || pteW leaf) && (!n.x || pteX leaf)

/-- The physical address of a byte of a page. -/
def leafPhys (leaf va : W64) : Nat := pteAddr leaf + va.toNat % leafBytes (pteSize leaf)

/-- Whether a physical address is in the system window (R83). -/
def isRemote (pa : Nat) : Bool := pa.testBit 51

/-- Whether a physical address exists (R83). -/
def physExists (pa : Nat) : Bool := isRemote pa || decide (pa < deviceBytes)

/-- What a translation yields. -/
inductive Xlate where
  | ok (pa : Nat) (leaf : W64)
  | trap (t : Trap)
  | miss
  deriving DecidableEq, Repr

/-- Check an access against its leaf: ADDR, then PROT (R313). -/
def leafCheck (leaf va : W64) (ctx : Nat) (n : Need) : Xlate :=
  let pa := leafPhys leaf va
  if !physExists pa then .trap { cause := Cause.addr, info := va }
  else if leafPermits leaf ctx n then .ok pa leaf
  else .trap { cause := Cause.prot, info := va }

/-- Translate through the TLB (R81, R261). -/
def State.translate (s : State) (core ctx : Nat) (va : W64) (n : Need) : Xlate :=
  if !canonical va then .trap { cause := Cause.addr, info := va }
  else
    match s.tlbEntry? core ctx va with
    | some e => leafCheck e.leaf va ctx n
    | none => .miss

/-! ## Finishing a walk -/

/-- How a finished walk leaves: a fault, a page that another walk zeroes, or a leaf to install. -/
inductive WalkResult where
  | fault (level reason : Nat)
  | zeroing
  | leaf (entry : W64)
  deriving DecidableEq, Repr

/-- Zero a page on its allocation and write own = 2 (R263). Only a page in device memory has home slices here. -/
def State.allocatePage (s : State) (entryAddr : Nat) (e : W64) : State :=
  let s := if physExists (pteAddr e) && !isRemote (pteAddr e) then s.zeroSpan (pteAddr e) (leafBytes (pteSize e)) else s
  s.deviceWrite entryAddr (bytesOfNat 8 (setField e.toNat 11 2 2))

/-- One whole walk (R261, R263): CAS of own, zeroing and own = 2 come about within it. -/
def State.walk (s : State) (ctx : Nat) (va : W64) : State × WalkResult :=
  match s.walkTables ctx va with
  | .fault level reason => (s, .fault level reason)
  | .leaf a _ e =>
    if pteZoa e && pteOwn e == 0 then
      (s.allocatePage a e, .leaf (BitVec.ofNat 64 (setField e.toNat 11 2 2)))
    else if pteZoa e && pteOwn e == 1 then (s, .zeroing)
    else (s, .leaf e)

/-! ## Words that wait for walks -/

/-- The first of each run of equal pages among addresses. -/
def onePerPage : List (Nat × W64 × Nat) → List (Nat × W64 × Nat)
  | [] => []
  | m :: ms => m :: (onePerPage ms).filter fun k => k.2.1.toNat / 2 ^ 16 != m.2.1.toNat / 2 ^ 16

/-- The lanes that miss on the page of an address, each with its own. -/
def missLanes (ms : List (Nat × W64 × Nat)) (va : W64) : List (Nat × W64) :=
  (ms.filter fun k => k.2.1.toNat / 2 ^ 16 == va.toNat / 2 ^ 16).map fun k => (k.1, k.2.1)

/-- Start a walk for each page that lanes of the word miss on, with the access code of each; the word issues once
they have ended (R261). -/
def State.startWalks (s : State) (i : Issue) (ms : List (Nat × W64 × Nat)) (quiet : Bool := false) : State :=
  (onePerPage ms).foldl (fun s m =>
    let w : Walk :=
      { uid := s.nextUid, ctx := i.team.ctx, core := i.team.core, va := m.2.1, access := m.2.2, team := i.cursor.team,
        gang := i.cursor.gang, path := some i.cursor.path, command := none, quiet, lanes := missLanes ms m.2.1, parked := false }
    ({ s with walks := s.walks ++ [w] }.bump).modPath i.cursor fun p => { p with walks := p.walks ++ [w.uid] })
    (s.hold i)

end Sys2Proof.Machine
end

