-- ==== Sys2Proof/Machine/Trace.lean ====
section
/-! DEFINITION. The bookkeeping of a trace (R103 to R124): ordinals' order, nodes and marks, the reader index and the
writer map, recorded reads, traced stores, unwriting, trace failure, and digests (R130). -/

namespace Sys2Proof.Machine

/-! ## Order of places in the spawn tree (R106)

A place is a list of dyadic numbers [n, k] that stand for n / 2^k, one for each generation. -/

/-- Whether one dyadic number is below another. -/
def dyLt (a b : List Nat) : Bool := decide (a.getD 0 0 * 2 ^ b.getD 1 0 < b.getD 0 0 * 2 ^ a.getD 1 0)

/-- Depth-first pre-order of places. -/
def posLt : List (List Nat) → List (List Nat) → Bool
  | [], [] => false
  | [], _ :: _ => true
  | _ :: _, [] => false
  | x :: xs, y :: ys => dyLt x y || (!dyLt y x && posLt xs ys)

/-- A number between two, or above one. -/
def dyBetween (lo : List Nat) (hi : Option (List Nat)) : List Nat :=
  match hi with
  | none => [lo.getD 0 0 / 2 ^ lo.getD 1 0 + 1, 0]
  | some h =>
    [lo.getD 0 0 * 2 ^ h.getD 1 0 + h.getD 0 0 * 2 ^ lo.getD 1 0, lo.getD 1 0 + h.getD 1 0 + 1]

/-! ## Finding -/

def Trace.node? (t : Trace) (task : Nat) : Option Node := t.nodes.find? fun n => n.task == task

def Trace.modNode (t : Trace) (task : Nat) (f : Node → Node) : Trace :=
  { t with nodes := t.nodes.map fun n => if n.task == task then f n else n }

/-- Whether the trace is live and not FAILED: its tracked pages act as tracked (R104, R331). -/
def Trace.acts (t : Trace) : Bool := t.state != .released && t.state != .failed

/-- The trace of a context, while it acts. -/
def State.actingTrace? (s : State) (ctx : Nat) : Option Trace := (s.trace? ctx).filter Trace.acts

/-- Whether a task belongs to the traced launch of an acting trace. -/
def Trace.owns (t : Trace) (launch : Nat) : Bool := t.launch == launch

/-- The granule of an address (R103). -/
def granuleOf (va : W64) : Nat := field va.toNat 6 50

/-- A granule's first address. -/
def granuleAddr (g : Nat) : W64 := ((BitVec.ofNat 50 g) ++ 0#6 : BitVec 56).signExtend 64

/-- A ReadKey that names a granule. -/
def ReadKey.isGranule : ReadKey → Bool
  | .granule _ => true
  | .claim _ => false

def Trace.writer (t : Trace) (g : Nat) : Option Nat := (t.writers.find? fun w => w.1 == g).map Prod.snd

/-- Whether a node runs as a re-execution (R110). -/
def Node.isRerun (n : Node) : Bool := n.state == .reexec || (n.state == .remarked && n.rerun)

/-- Whether a task is a descendant of another in the trace. -/
def Trace.descends (t : Trace) (d a : Nat) : Bool :=
  match t.node? a, t.node? d with
  | some na, some nd => na.position.length < nd.position.length && nd.position.take na.position.length == na.position
  | _, _ => false

/-- The order of two tasks' ordinals. -/
def Trace.before (t : Trace) (a b : Nat) : Bool :=
  match t.node? a, t.node? b with
  | some na, some nb => posLt na.position nb.position
  | _, _ => false

/-! ## Capacity (R114, R115) -/

/-- Bytes of the index region. -/
def Trace.indexBytes (t : Trace) : Nat := (t.size - 65536) / 2

/-- Bytes of the record region. -/
def Trace.recordBytes (t : Trace) : Nat := t.size - 65536 - t.indexBytes

/-- Index entries in use: registrations and writer-map entries (R109). -/
def Trace.indexUsed (t : Trace) : Nat := t.readers.length + t.writers.length

/-- The edges of a node's record: those of the last completed run while it runs again (R121). -/
def Node.edges (n : Node) : List Nat := n.oldEdges.getD n.children

/-- Bytes of the record region that a node takes with its lists. -/
def Node.bytes (n : Node) : Nat :=
  64 + 8 * (n.reads.length + n.newReads.length) + 16 * (n.children.length + (n.oldEdges.getD []).length)

/-- Bytes of the record region in use. -/
def Trace.recordUsed (t : Trace) : Nat := (t.nodes.map Node.bytes).sum

/-- Whether the trace store has room for more. -/
def Trace.room (t : Trace) (record index : Nat) : Bool :=
  t.recordUsed + record ≤ t.recordBytes && 16 * t.indexUsed + index ≤ t.indexBytes

/-! ## Marks (R110, Table 5.6) -/

/-- Mark of R110. -/
def Node.mark (n : Node) : Node :=
  match n.state with
  | .live => { n with state := .stale }
  | .running => { n with state := .remarked, rerun := false }
  | .reexec => { n with state := .remarked, rerun := true }
  | .stale => n
  | .remarked => n

def Trace.mark (t : Trace) (task : Nat) : Trace := t.modNode task Node.mark

/-- Mark every registered reader of a key but one task. -/
def Trace.markReaders (t : Trace) (key : ReadKey) (but : Option Nat) : Trace :=
  (t.readers.filter fun r => r.key == key && but != some r.task).foldl (fun t r => t.mark r.task) t

/-! ## Threads that wait for a writer (R111) -/

/-- Whether a granule's writer is LIVE, gone, or the trace no longer acts. -/
def State.writerSettled (s : State) (ctx granule : Nat) : Bool :=
  match s.actingTrace? ctx with
  | none => true
  | some t =>
    match (t.writer granule).bind t.node? with
    | none => true
    | some n => n.state == .live

/-- A thread's wait for a writer ends. -/
def Thread.wakeWriter (t : Thread) (s : State) : Thread :=
  match t.blocked with
  | .writer ctx g => if s.writerSettled ctx g then { t with blocked := .none } else t
  | _ => t

/-- An engine command's wait for a writer ends: its element is retried. -/
def Command.wakeWriter (c : Command) (ctx : Nat) (s : State) : Command :=
  match c.state with
  | .waitingWriter g => if s.writerSettled ctx g then { c with state := .running } else c
  | _ => c

/-- Threads and commands whose writers have settled go on. -/
def State.wakeWriters (s : State) : State :=
  { s with teams := s.teams.map fun t =>
      { t with
        gangs := t.gangs.map fun g => { g with threads := g.threads.map fun th => th.wakeWriter s }
        commands := t.commands.map fun c => c.wakeWriter t.ctx s } }

/-! ## Failure of a trace (R331) -/

/-- A trace enters FAILED: its recording, readers and pins end. `recorded` says that a launch's own record stands for
the trace's. -/
def State.failTrace (s : State) (ctx cause : Nat) (info : W64) (recorded : Bool) : State :=
  match s.actingTrace? ctx with
  | none => s
  | some t =>
    let early := t.state == .recording || t.state == .settling
    let s := s.modTrace ctx fun t => { t with state := .failed, readers := [] }
    let s := if early then s.modLaunch t.launch fun l => l.markFailed cause else s
    let r := { McRecord.blank 2 4 cause with
                info, ctx, launchId := ((s.launch? t.launch).map Launch.record).getD 0#64 }
    (if recorded then s else s.writeRecord r).wakeWriters

/-! ## Where the records stand, and poison in them (R114, R331) -/

/-- The offset of the record region. -/
def Trace.recordBase (t : Trace) : Nat := 65536 + t.indexBytes

/-- Nodes stand one after another from the start of the record region (DESIGN CHOICE, log 39). -/
def Trace.nodeOffset (t : Trace) (k : Nat) : Nat := t.recordBase + 64 * k

/-- The place of a task's node among the nodes. -/
def Trace.nodeIndex (t : Trace) (task : Nat) : Option Nat := t.nodes.findIdx? fun n => n.task == task

/-- Where the lists of the nodes before a node end, from the end of the nodes, in 64-byte units each. -/
def listUnits (n : Node) : Nat := (8 * n.reads.length + 16 * n.edges.length + 63) / 64

/-- The offset of a node's lists, which follow the nodes (DESIGN CHOICE, log 39). -/
def Trace.listOffset (t : Trace) (k : Nat) : Nat :=
  t.nodeOffset t.nodes.length + 64 * ((t.nodes.take k).map listUnits).sum

/-- Where a byte of the trace store lies in device memory. -/
def State.storePhys (s : State) (t : Trace) (off : Nat) : Option Nat :=
  let va := t.base + BitVec.ofNat 64 off
  match s.walkTables t.ctx va with
  | .leaf _ _ e => if isRemote (leafPhys e va) then none else some (leafPhys e va)
  | .fault _ _ => none

/-- The sector of the index region that holds what a key leads to: its readers, or its writer. -/
def Trace.indexSector (t : Trace) (k : ReadKey) : Nat :=
  65536 + 64 * (Config.indexSlot t.base.toNat (match k with
    | .granule g => 2 * g
    | .claim n => 2 * n.toNat + 1) % (t.indexBytes / 64))

/-- The sectors of a task's record and of its lists. -/
def Trace.recordSectors (t : Trace) (task : Nat) : List Nat :=
  match t.nodeIndex task with
  | none => []
  | some k => t.nodeOffset k :: (List.range ((t.nodes[k]?.map listUnits).getD 0)).map fun u => t.listOffset k + 64 * u

/-- Whether one of some sectors of a trace store is poisoned. -/
def State.anyPoisoned (s : State) (t : Trace) (offs : List Nat) : Bool :=
  offs.any fun off => ((s.storePhys t off).map fun pa => s.poisonedAt pa 1).getD false

/-- A trace recorder reads a task's records and what some keys lead to: if it consumes poison, the trace fails, and what
made it read goes on unrecorded (R331). -/
def State.recorderReads (s : State) (ctx : Nat) (task : Option Nat) (keys : List ReadKey) : State :=
  match s.actingTrace? ctx with
  | none => s
  | some t =>
    if s.anyPoisoned t (((task.map t.recordSectors).getD []) ++ keys.map t.indexSector) then
      s.failTrace ctx Cause.poison 0#64 false
    else s

/-- Mark every registered reader of a key but one task, as the index names them. -/
def State.markReaders (s : State) (ctx : Nat) (key : ReadKey) (but : Option Nat) : State :=
  match (s.recorderReads ctx none [key]).actingTrace? ctx with
  | none => s.recorderReads ctx none [key]
  | some _ => s.modTrace ctx fun t => t.markReaders key but

/-! ## Recorded reads (R108, R109, R111, R112) -/

/-- A task that reads or writes tracked memory of an acting trace. -/
structure Traced where
  trace : Trace
  task : Nat
  deriving DecidableEq, Repr

/-- The trace in which a team's accesses to a tracked page are traced. -/
def State.traced? (s : State) (ctx launch task : Nat) : Option Traced :=
  ((s.actingTrace? ctx).filter fun t => t.owns launch).map fun t => { trace := t, task }

/-- What R111 says of a recorded read of a derived granule. -/
inductive ReadFate where
  | proceed (admitted : Bool)
  | wait
  | order
  deriving DecidableEq, Repr

/-- Whether R112 admits a read of a granule whose writer stands later: the writer fulfilled a claim entry for which
the reading thread has had DONE. -/
def admittedBy (claims : List (BitVec 128)) (w : Node) : Bool := w.fulfilled.any fun n => claims.contains n

/-- The table of R111. -/
def Traced.readFate (t : Traced) (g : Nat) (derived : Bool) (claims : List (BitVec 128)) : ReadFate :=
  if !derived then .proceed false
  else
    match (t.trace.writer g).bind t.trace.node? with
    | none => .proceed false
    | some w =>
      if w.task == t.task then .proceed false
      else if t.trace.before w.task t.task then (if w.state == .live then .proceed false else .wait)
      else if admittedBy claims w then .proceed true
      else .order

/-- Insert a key into a gang's read filter of 256 (R109). -/
def Gang.filterInsert (g : Gang) (k : ReadKey) : Gang :=
  { g with filter := (if g.filter.length ≥ 256 then g.filter.drop 1 else g.filter) ++ [k] }

/-- Bytes that a read entry needs which the trace store lacks, if it lacks any: 8 of record, 16 of index (R115). -/
def Traced.readLack (t : Traced) (k : ReadKey) : Option Nat :=
  let registered := t.trace.readers.any fun r => r.key == k && r.task == t.task
  let index := if registered then 0 else 16
  if t.trace.room 8 index then none
  else some ((if t.trace.room 8 0 then 0 else 8) + (if t.trace.room 0 index then 0 else index))

/-- Append a read entry to the task's node and register its reader. -/
def Trace.addRead (t : Trace) (task : Nat) (k : ReadKey) (admitted : Bool) : Trace :=
  let t := t.modNode task fun n =>
    if n.isRerun then { n with newReads := n.newReads ++ [k] } else { n with reads := n.reads ++ [k] }
  if t.readers.any fun r => r.key == k && r.task == task then
    { t with readers := t.readers.map fun r =>
        if r.key == k && r.task == task then { r with admitted := r.admitted || admitted } else r }
  else { t with readers := t.readers ++ [{ key := k, task, admitted }] }

/-- A recorded read of a key by a gang of a traced task whose fate is to proceed: one entry unless the filter holds
it. The result is the bytes that the trace store lacks, when the trace has failed for want of room (R332). -/
def State.recordRead (s : State) (t : Traced) (team gang : Nat) (k : ReadKey) (admitted : Bool) : State × Option Nat :=
  if ((s.gang? team gang).map fun g => g.filter.contains k).getD false then (s, none)
  else
    match t.readLack k with
    | some n => (s.failTrace t.trace.ctx Cause.tracefull (BitVec.ofNat 64 n) false, some n)
    | none =>
      ((s.modTrace t.trace.ctx fun x => x.addRead t.task k admitted).modGang team gang fun g => g.filterInsert k, none)

/-! ## Traced stores (R110) -/

/-- Why a traced store may not be applied, before anything is written (R110, R115, R313). -/
inductive StoreFate where
  | apply
  | conflict
  | order
  | full
  deriving DecidableEq, Repr

/-- The checks of OnTracedStore. -/
def Traced.storeFate (t : Traced) (g : Nat) (derived : Bool) : StoreFate :=
  if !derived then .conflict
  else
    let w := t.trace.writer g
    let mine := w == none || w == some t.task
    let takeOver := match w, t.trace.node? t.task with
      | some w, some n => n.isRerun && t.trace.descends w t.task
      | _, _ => false
    if !mine && !takeOver then .conflict
    else if t.trace.readers.any fun r =>
        r.key == .granule g && r.task != t.task && t.trace.before r.task t.task && !r.admitted then .order
    else if w == none && !t.trace.room 0 16 then .full
    else .apply

/-- Set the writer of a granule, and mark the one that loses it. -/
def Trace.setWriter (t : Trace) (g task : Nat) : Trace :=
  let old := t.writer g
  let t := match old with
    | none => { t with writers := t.writers ++ [(g, task)] }
    | some w =>
      if w == task then t
      else ({ t with writers := t.writers.map fun (x : Nat × Nat) => if x.1 == g then (g, task) else x }).mark w
  t.modNode task fun n => if n.writes.contains g then n else { n with writes := n.writes ++ [g] }

/-- Write bytes within a granule at its home, and mark its readers, but one, if the granule changes; a granule in a
poisoned sector counts as changed (R110, R117, R333). -/
def State.writeMarking (s : State) (ctx : Nat) (va : W64) (pa : Nat) (bytes : List Byte) (but : Option Nat) : State :=
  let old := s.mem.readBytes (pa / 64 * 64) 64
  let blind := s.poisonedAt pa 1
  let s := s.homeWrite pa bytes
  if blind || s.mem.readBytes (pa / 64 * 64) 64 != old then
    s.markReaders ctx (.granule (granuleOf va)) but
  else s

/-- What a granule has come to hold in the current run or propagation (R122). -/
def Trace.addVersion (t : Trace) (g : Nat) (bs : List Byte) : Trace :=
  if t.versions.contains (g, bs) then t else { t with versions := t.versions ++ [(g, bs)] }

/-- Apply a traced store that its checks let through. -/
def State.tracedStore (s : State) (t : Traced) (va : W64) (pa : Nat) (bytes : List Byte) : State :=
  let s := (s.modTrace t.trace.ctx fun x => x.setWriter (granuleOf va) t.task).writeMarking t.trace.ctx va pa bytes (some t.task)
  s.modTrace t.trace.ctx fun x => x.addVersion (granuleOf va) (s.mem.readBytes (pa / 64 * 64) 64)

/-! ## Written bytes and digests (R130) -/

/-- Add bytes to what a task has written. -/
def Task.wrote (t : Task) (va : W64) (bytes : List Byte) : Task :=
  { t with
    written := t.written.writeBytes va.toNat bytes
    writtenAt := (List.range bytes.length).foldl (fun l k =>
      if l.contains (va.toNat + k) then l else insertBy (· < ·) (va.toNat + k) l) t.writtenAt }

/-- Which bytes of a doubleword a list of addresses holds. -/
def byteMask (l : List Nat) (a : Nat) : BitVec 8 :=
  BitVec.ofNat 8 ((List.range 8).foldl (fun m i => if l.contains (a + i) then m + (1 <<< i) else m) 0)

/-- TaskDigest of R130. -/
def Task.digest (t : Task) : W64 :=
  ((t.writtenAt.map fun a => a / 8 * 8).dedup).foldl (fun d a =>
    d + mix (BitVec.ofNat 64 a) (BitVec.ofNat 64 (t.written.readNat a 8)) (byteMask t.writtenAt a)) 0#64

/-- Whether an address lies in the private memory of a team's threads. -/
def inTeamPrivate (t : Team) (va : W64) : Bool :=
  decide (t.privBlock.toNat ≤ va.toNat) && decide (va.toNat < t.privBlock.toNat + t.gangs.length * 32 * 256 * t.privUnits)

/-- A store of a replay: it folds into the replay's digest, and is not performed (R338). -/
def State.replayWrite (s : State) (t : Team) (va : W64) (bytes : List Byte) : State :=
  match s.auditBy t.uid with
  | none => s
  | some a =>
    if inTeamPrivate { t with privBlock := a.block } va then s
    else s.modAudit a.uid fun a => { a with ran := a.ran.wrote va bytes }

/-- DescDigest of R130. -/
def digestDesc (desc : BitVec 512) : W64 :=
  (List.range 8).foldl (fun d i => d + mix (BitVec.ofNat 64 (8 * i)) (desc.extractLsb' (64 * i) 64) 0xFF#8) 0#64

/-- One fold of LaunchDigest for a launch with TRACE or DET. -/
def digestFold (x d : W64) : W64 :=
  let y := (x ^^^ d) * 0x9FB21C651E98DF25#64
  y ^^^ (y >>> 29)

/-! ## Unwriting (R121) -/

/-- Where a granule of a context lies, by the tables as they stand; a granule that no longer lies in device memory has
no contents to zero. -/
def State.granulePhys (s : State) (ctx g : Nat) : Option Nat :=
  match s.walkTables ctx (granuleAddr g) with
  | .leaf _ _ e =>
    let pa := leafPhys e (granuleAddr g)
    if pa < deviceBytes then some pa else none
  | .fault _ _ => none

/-- Unwrite of R121. -/
def State.unwrite (s : State) (ctx g : Nat) : State :=
  let s := s.modTrace ctx fun t => { t with writers := t.writers.filter fun w => w.1 != g }
  match s.granulePhys ctx g with
  | none => s
  | some pa =>
    if (s.mem.readBytes pa 64).all (· == 0#8) && !s.poisonedAt pa 1 then s
    else ((s.zeroSpan pa 64).modTrace ctx fun t => t.addVersion g (List.replicate 64 0#8)).markReaders ctx (.granule g) none

/-! ## Access of outsiders (R110, R117, R122) -/

/-- What a read of a granule that R122 leaves open may find: zero, or what the granule has come to hold in the current
run or propagation; one that nothing has written meanwhile stands as it is (DEDUCED, log 13). -/
def State.unsettledValues (s : State) (ctx g pa : Nat) : List (List Byte) :=
  let vs := ((s.trace? ctx).map fun t => (t.versions.filter fun v => v.1 == g).map Prod.snd).getD []
  List.replicate 64 0#8 :: (if vs.isEmpty then [s.mem.readBytes (pa / 64 * 64) 64] else vs)

/-- The bytes that such a read finds, within one granule. -/
def State.unsettledBytes (s : State) (ctx who : Nat) (va : W64) (pa n : Nat) : List Byte :=
  let vs := s.unsettledValues ctx (granuleOf va) pa
  ((vs.getD (Config.unsettledPick s.tick who (granuleOf va) % vs.length) []).drop (pa % 64)).take n

/-- Whether derived memory read from outside the trace may read as R122 says. -/
def State.unsettled (s : State) (ctx : Nat) : Bool :=
  match s.trace? ctx with
  | some t => t.state == .settling || t.state == .propagating
  | none => false

end Sys2Proof.Machine
end

