-- ==== Sys2Proof/Machine/Access.lean ====
section
/-! DEFINITION. How loads and stores act: the L1 and the store path (R85 to R88), the system window's requests (R83,
R271), transactional accesses (R96, R219), traced accesses (R108 to R111), poison (R328), and the shape of a word that
accesses memory in each active thread. -/

namespace Sys2Proof.Machine

/-! ## The L1 (R85, R86) -/

def Core.l1Find (c : Core) (sec : Nat) : Option L1Sector := c.l1.find? fun x => x.sector == sec

/-- The sectors whose lines are among the first n that a list names; `seen` holds those already met. -/
def keepLines (n : Nat) : List Nat → List L1Sector → List L1Sector
  | _, [] => []
  | seen, x :: xs =>
    if seen.contains (x.sector / 4) then x :: keepLines n seen xs
    else if seen.length < n then x :: keepLines n (x.sector / 4 :: seen) xs
    else keepLines n seen xs

/-- Put a sector into the L1 of 768 lines of four sectors (R85). Which line leaves when it is full is not stated: here
the one filled longest ago (DESIGN CHOICE, log 10). -/
def Core.l1Fill (c : Core) (x : L1Sector) : Core :=
  { c with l1 := keepLines 768 [] (x :: c.l1.filter fun y => y.sector != x.sector) }

def Core.l1DropSector (c : Core) (sec : Nat) : Core := { c with l1 := c.l1.filter fun x => x.sector != sec }

def Core.l1DropLine (c : Core) (pa : Nat) : Core := { c with l1 := c.l1.filter fun x => x.sector / 4 != pa / 256 }

/-- An acknowledged store updates the bytes of a sector that is present. -/
def Core.l1Store (c : Core) (pa : Nat) : List Byte → Core
  | [] => c
  | b :: bs =>
    ({ c with l1 := c.l1.map fun x =>
        if x.sector == sectorOf pa then { x with data := x.data.set (pa % 64) b } else x } : Core).l1Store (pa + 1) bs

/-- Sectors leave an L1: those that are there, and those that answers from the system window would fill. -/
def State.dropFrom (s : State) (core : Nat) (gone : Nat → Bool) : State :=
  { s.modCore core fun c => { c with l1 := c.l1.filter fun x => !gone x.sector } with
    remotes := s.remotes.map fun r => if r.fill == some core && gone (sectorOf r.pa) then { r with fill := none } else r }

/-- Invalidate a core's whole L1 (R89). -/
def State.invalidateL1 (s : State) (core : Nat) : State := s.dropFrom core fun _ => true

/-- One sector leaves an L1: an atomic is sent (R92), or a read has bound past the L1, which may then hold older bytes
(Coherence, R101). -/
def State.dropSector (s : State) (core sec : Nat) : State := s.dropFrom core fun x => x == sec

/-- A line leaves an L1 (R210). -/
def State.dropLine (s : State) (core pa : Nat) : State := s.dropFrom core fun x => x / 4 == pa / 256

/-- Fill a sector of device memory from its home. -/
def State.fillSector (s : State) (core sec : Nat) : State :=
  s.modCore core fun c =>
    c.l1Fill { sector := sec, data := s.mem.readBytes (64 * sec) 64, poisoned := (s.l2Sector sec).poisoned }

/-- A read has bound at its home: it fills the sector, or the L1 keeps no older one. -/
def State.boundAt (s : State) (core pa : Nat) (allocate : Bool) : State :=
  if allocate then s.fillSector core (sectorOf pa) else s.dropSector core (sectorOf pa)

/-! ## The system window (R83, R271) -/

/-- What an aperture entry names. -/
inductive Target where
  | unused
  | device (id : Nat)
  | hostRange
  deriving DecidableEq, Repr

/-- The target of a system-window address: bits [50:39] select the entry. -/
def State.target (s : State) (pa : Nat) : Target :=
  match s.apertures.find? fun a => a.entry == field pa 39 12 with
  | some a => if a.kind == 1 then .device a.target else if a.kind == 2 then .hostRange else .unused
  | none => .unused

/-- The request codes of a payload's byte 1: an atomic operation, CAS, or a reduction (DESIGN CHOICE, log 47: the packets of
the system window have no stated payload). -/
def requestCas : Nat := 16
def requestReduce (op : Nat) : Nat := 32 + op

/-- The flit of a request: size, operation, and two operands (DESIGN CHOICE, log 47). -/
def requestFlit (size op : Nat) (v w : W64) : List Byte :=
  [BitVec.ofNat 8 size, BitVec.ofNat 8 op] ++ List.replicate 6 0#8 ++ bytesOfNat 8 v.toNat ++ bytesOfNat 8 w.toNat
    ++ List.replicate 40 0#8

/-- Bytes padded with zeros to whole flits of 64 bytes (R18). -/
def padFlits (bs : List Byte) : List Byte := bs ++ List.replicate ((64 - bs.length % 64) % 64) 0#8

/-- A request as it stands before it serves anything. -/
def Remote.blank (pa : Nat) (p : Packet) : Remote :=
  { pa, packet := p, op := none, store := none, commit := none, fill := none, late := [], watcher := none, command := none,
    reader := none, fetcher := none, unit := false }

/-- A request of this device: kind 0 read, 1 write, 2 atomic, and what it serves. A host range is no device: its request
leaves by PCIe and is kept only until its answer. -/
def State.sendRequest (s : State) (pa kind : Nat) (flit : List Byte) (serves : Remote → Remote) : State :=
  let host := match s.target pa with
    | .device _ => false
    | _ => true
  let dst := match s.target pa with
    | .device id => id
    | _ => 0
  let p : Packet :=
    { dst, src := s.island.deviceId.toNat, vc := 0, flits := (flit.length + 63) / 64, kind, tag := s.nextUid % 2 ^ 24,
      addr := BitVec.ofNat 64 (pa % 2 ^ 39), payload := padFlits flit }
  ({ s with
      outPackets := if host then s.outPackets else s.outPackets ++ [p]
      remotes := s.remotes ++ [serves (Remote.blank pa p)] } : State).bump

/-- A read of n bytes. -/
def State.sendRead (s : State) (pa n : Nat) (serves : Remote → Remote) : State :=
  s.sendRequest pa 0 (requestFlit n 0 0#64 0#64) serves

/-- A read of the sector that holds an address, which fills an L1 (R85). -/
def State.sendFill (s : State) (core pa : Nat) (serves : Remote → Remote) : State :=
  s.sendRead (sectorOf pa * 64) 64 fun r => { serves r with pa, fill := some core }

/-- The bytes of the system window that a unit of the device has waited for, if all have come. -/
def State.unitBytes? (s : State) (pa n : Nat) : Option (List Byte) :=
  (List.range n).mapM fun k => (s.unitFetched.find? fun c => c.1 == pa + k).map Prod.snd

/-- Whether a unit waits for an answer about an address of the system window. -/
def State.unitAsks (s : State) (pa : Nat) : Bool := s.remotes.any fun r => r.unit && r.pa == pa

/-- Forget bytes that a unit has used. -/
def State.forgetUnit (s : State) (pa n : Nat) : State :=
  { s with
    unitFetched := s.unitFetched.filter fun c => !(decide (pa ≤ c.1) && decide (c.1 < pa + n))
    unitFailed := s.unitFailed.filter fun a => a != pa }

/-! ## Reaching an address -/

/-- The address, size, needs and access code (Table 12.3) of one lane's access. -/
structure Access where
  va : W64
  size : Nat
  need : Need
  code : Nat
  deriving DecidableEq, Repr

/-- ALIGN, then ADDR, PROT, or a TLB miss (R313). An address of an unused aperture entry names nothing and raises
ADDR (DESIGN CHOICE, log 3). -/
def State.reach (s : State) (core ctx : Nat) (a : Access) : Xlate :=
  if a.va.toNat % a.size != 0 then .trap { cause := Cause.align, info := a.va }
  else
    match s.translate core ctx a.va a.need with
    | .ok pa leaf =>
      if isRemote pa && s.target pa == .unused then .trap { cause := Cause.addr, info := a.va } else .ok pa leaf
    | x => x

/-! ## Private memory -/

/-- Whether an address lies in a thread's own private memory (R37). -/
def inPrivate (t : Team) (th : Thread) (va : W64) : Bool :=
  decide (th.privBase.toNat ≤ va.toNat) && decide (va.toNat < th.privBase.toNat + 256 * t.privUnits)

/-! ## A thread's own pending accesses (R86, R87) -/

/-- Whether two ranges of bytes meet. -/
def overlaps (a n b m : Nat) : Bool := decide (a < b + m) && decide (b < a + n)

/-- Whether a pending operation has yet to bind or perform at bytes it shares with an access. -/
def OpKind.pendsAt (k : OpKind) (pa n : Nat) : Bool :=
  match k with
  | .load r => r.bound.isNone && overlaps r.pa r.size pa n
  | .atomic (.atomic _ size _ p _ _) => overlaps p size pa n
  | .atomic (.cas size _ p _ _ _) => overlaps p size pa n
  | _ => false

/-- Whether a thread has an earlier access at the same bytes that has yet to bind or perform: loads and atomics, and
reductions, or stores of either kind. -/
def State.pendsBefore (s : State) (core team gang lane q pa n : Nat) (stores : Bool) : Bool :=
  s.ops.any (fun o => o.team == team && o.gang == gang && o.lane == lane && decide (o.seq < q) && o.kind.pendsAt pa n)
    || (s.core core).stores.any fun x =>
      x.command.isNone && x.team == team && x.gang == gang && x.lane == lane && decide (x.seq < q)
        && overlaps x.pa x.data.length pa n && (stores || x.kind.reduces)

/-- The thread's own unacknowledged stores that precede an access, oldest first (R86). -/
def State.ownStores (s : State) (core team gang lane q : Nat) : List StoreOp :=
  (s.core core).stores.filter fun x =>
    x.command.isNone && x.team == team && x.gang == gang && x.lane == lane && decide (x.seq < q) && !x.kind.reduces

/-- Whether a lower lane's operation of the same word on the same bytes has yet to bind or be performed (R208, R212). -/
def State.laneBefore (s : State) (team gang batch lane : Nat) (pc : W64) (pa n : Nat) : Bool :=
  s.ops.any fun p =>
    p.team == team && p.gang == gang && p.batch == batch && p.pc == pc && decide (p.lane < lane) && p.kind.pendsAt pa n

/-- The youngest own store's byte at an address (R86). -/
def forwardByte (xs : List StoreOp) (a : Nat) : Option Byte :=
  xs.foldl (fun r x => if decide (x.pa ≤ a) && decide (a < x.pa + x.data.length) then x.data[a - x.pa]? else r) none

/-- Lay own stores over bytes that start at an address. -/
def overlay (xs : List StoreOp) (pa : Nat) (bs : List Byte) : List Byte :=
  bs.mapIdx fun k b => (forwardByte xs (pa + k)).getD b

/-- The bytes of an access, if own stores supply them all. -/
def forwardAll (xs : List StoreOp) (pa n : Nat) : Option (List Byte) := (List.range n).mapM fun k => forwardByte xs (pa + k)

/-! ## New operations -/

/-- A pending operation of a lane of the issuing path. -/
def State.addOp (s : State) (i : Issue) (l : Nat) (k : OpKind) : State :=
  let th := (s.thread? i.cursor.team i.cursor.gang l).getD Thread.blank
  let o : Op :=
    { uid := s.nextUid, team := i.cursor.team, gang := i.cursor.gang, lane := l, core := i.team.core,
      pc := i.path.prefixAddr, flag := if flaggedWord i.word then i.path.flag else none, live := true, seq := th.memSeq, batch := s.tick,
      after := match k with
        | .atomic _ => max th.seen th.relStore
        | _ => th.seen
      queued := false, kind := k }
  ({ s with ops := s.ops ++ [o] } : State).bump.modThread i.cursor.team i.cursor.gang l fun t => { t with memSeq := t.memSeq + 1 }

/-- Whether a store that a thread issues now stays out of the path: a CLAIM or TXC of the thread, which the store follows,
has no result yet, and another thread that saw the store could bring that result about (R101; DESIGN CHOICE, log 20). -/
def State.defers (s : State) (core team gang lane q : Nat) : Bool :=
  s.acquires team gang lane q || (s.core core).stores.any fun x =>
    x.deferred && x.command.isNone && x.team == team && x.gang == gang && x.lane == lane

/-- A store or reduction of a lane enters the store path, and its gang counts it (R86), or is kept back. -/
def State.addStore (s : State) (i : Issue) (l : Nat) (va : W64) (pa : Nat) (data : List Byte) (k : StoreKind)
    (digest : Bool) : State :=
  let th := (s.thread? i.cursor.team i.cursor.gang l).getD Thread.blank
  let x : StoreOp :=
    { uid := s.nextUid, team := i.cursor.team, gang := i.cursor.gang, lane := l, command := none, va, pa, data, kind := k,
      seq := th.memSeq, digest, after := th.relStore, sent := false
      deferred := s.defers i.team.core i.cursor.team i.cursor.gang l th.memSeq
      countGang := i.cursor.gang, pc := i.path.prefixAddr }
  let s := (s.modCore i.team.core fun c => { c with stores := c.stores ++ [x] }).bump
  let s := s.modThread i.cursor.team i.cursor.gang l fun t => { t with memSeq := t.memSeq + 1 }
  if x.deferred then s else s.modGang i.cursor.team i.cursor.gang fun g => { g with unacked := g.unacked + 1 }

/-- The newest operation. -/
def State.lastOp (s : State) : Nat := s.nextUid - 1

/-! ## Poison (R328) -/

/-- A thread of a team consumes poison at a physical address. -/
def State.consumePoison (s : State) (team gang lane pa : Nat) (pc : W64) : State :=
  match s.gang? team gang with
  | none => s
  | some g => s.killTeam team (killOf g Cause.poison 0 (BitVec.ofNat 64 (pa / 64 * 64)) pc (laneBit lane))

/-! ## Loads -/

/-- Bytes of the system window that the word has waited for, if all have come. -/
def Path.fetchedBytes? (p : Path) (pa n : Nat) : Option (List Byte) :=
  (List.range n).mapM fun k => (p.fetched.find? fun c => c.1 == pa + k).map Prod.snd

/-- A loaded value as its register receives it (R207). -/
def loadValue (size : Nat) (sx : Bool) (bs : List Byte) : W64 :=
  let v := natOfBytes (bs.take size)
  if sx then toW64 (signExtend v (8 * size)) else BitVec.ofNat 64 v

/-- A load as its word asks for it. -/
structure LoadForm where
  size : Nat
  signExtend : Bool
  stream : Bool
  dest : Dest
  deriving DecidableEq, Repr

/-- Whether a load that misses allocates in the L1 (R85). -/
def LoadForm.allocates (f : LoadForm) (leaf : W64) : Bool := !f.stream && pteCache leaf == 0

/-- The pending operation of a load. -/
def LoadForm.req (f : LoadForm) (va : W64) (pa : Nat) (leaf : W64) (bypass : Bool) (bound : Option W64) : OpKind :=
  .load { dest := f.dest, va, pa, size := f.size, signExtend := f.signExtend, allocate := f.allocates leaf, bypass, bound }

/-- A load that binds at its issue with these bytes. -/
def State.boundLoad (s : State) (i : Issue) (l : Nat) (f : LoadForm) (va : W64) (pa : Nat) (leaf : W64) (bs : List Byte) :
    State :=
  let v := loadValue f.size f.signExtend bs
  (s.addOp i l (f.req va pa leaf true (some v))).auditLog i.cursor.team (.load i.cursor.gang l s.tick va v)

/-! ## Loads that have waited (R86, R87, R208, R328) -/

/-- A pending operation is over: it leaves, and the flags that it held clear (R138). -/
def State.endOp (s : State) (o : Op) : State := (s.dropOp o.uid).settleFlags o.team o.gang

/-- A pending load has its value; the members of a WAITM that it kept waiting may go on (R91). -/
def State.bindTo (s : State) (o : Op) (r : LoadReq) (bs : List Byte) : State :=
  let v := loadValue r.size r.signExtend bs
  ((s.modOp o.uid fun o => { o with kind := .load { r with bound := some v } }).auditLog o.team
    (.load o.gang o.lane o.batch r.va v)).settleReleases o.team o.gang

/-- A load of poisoned bytes: its team consumes them, unless it is killed already. -/
def State.poisonLoad (s : State) (o : Op) (pa : Nat) : State :=
  if o.live then (s.endOp o).consumePoison o.team o.gang o.lane pa o.pc else s.endOp o

/-- A load that has waited binds beneath the thread's own earlier stores: in the L1 where that holds its sector and it
does not allocate (R85), or at its home. -/
def State.bindLoad (s : State) (o : Op) (r : LoadReq) : State :=
  let own := s.ownStores o.core o.team o.gang o.lane o.seq
  match forwardAll own r.pa r.size, (if r.allocate then none else (s.core o.core).l1Find (sectorOf r.pa)) with
  | some bs, _ => s.bindTo o r bs
  | none, some x =>
    if x.poisoned then s.poisonLoad o r.pa else s.bindTo o r (overlay own r.pa ((x.data.drop (r.pa % 64)).take r.size))
  | none, none =>
    if s.poisonedAt r.pa r.size then s.poisonLoad o r.pa
    else (s.boundAt o.core r.pa r.allocate).bindTo o r (overlay own r.pa (s.mem.readBytes r.pa r.size))

/-- The loads of lower lanes of the word that issues which have yet to bind at bytes that a lane reads now. -/
def State.lowerLoads (s : State) (i : Issue) (l pa n : Nat) : List (Op × LoadReq) :=
  s.ops.filterMap fun o =>
    match o.kind with
    | .load r =>
      if o.team == i.cursor.team && o.gang == i.cursor.gang && o.batch == s.tick && o.pc == i.path.prefixAddr
          && decide (o.lane < l) && o.kind.pendsAt pa n then some (o, r)
      else none
    | _ => none

/-- A lane's read binds as it issues: the lower lanes' reads of its bytes bind before it (R208), in the system window with
what the word has waited for. -/
def State.bindLower (s : State) (i : Issue) (l pa n : Nat) : State :=
  (s.lowerLoads i l pa n).foldl (fun s x =>
    if isRemote x.2.pa then
      match i.path.fetchedBytes? x.2.pa x.2.size with
      | some bs => s.bindTo x.1 x.2 (overlay (s.ownStores x.1.core x.1.team x.1.gang x.1.lane x.1.seq) x.2.pa bs)
      | none => s
    else s.bindLoad x.1 x.2) s

/-- A lane's read binds as it issues, after the lower lanes' reads of its bytes (R208), unless their poison has killed
the team. -/
def State.afterLower (s : State) (i : Issue) (l pa n : Nat) (read : State → State) : State :=
  let s := s.bindLower i l pa n
  if ((s.team? i.cursor.team).bind Team.kill).isSome then s else read s

/-- A load that binds at its home in the step that issues it: a recorded read that its gang's filter lacks (R108), or
a transaction's (R96). -/
def State.homeLoad (s : State) (i : Issue) (l : Nat) (f : LoadForm) (va : W64) (pa : Nat) (leaf : W64) : State :=
  if s.poisonedAt pa f.size then s.consumePoison i.cursor.team i.cursor.gang l pa i.path.prefixAddr
  else (s.boundLoad i l f va pa leaf (s.mem.readBytes pa f.size)).boundAt i.team.core pa (f.allocates leaf)

/-- An ordinary load (R87): it binds at issue when own stores supply all its bytes or the L1 holds its sector, unless
something comes before it that has yet to bind or be applied; otherwise later, at its home or its target. -/
def State.plainLoad (s : State) (i : Issue) (l : Nat) (f : LoadForm) (va : W64) (pa : Nat) (leaf : W64) : State :=
  let th := (s.thread? i.cursor.team i.cursor.gang l).getD Thread.blank
  let own := s.ownStores i.team.core i.cursor.team i.cursor.gang l th.memSeq
  let early := !(s.pendsBefore i.team.core i.cursor.team i.cursor.gang l th.memSeq pa f.size false
    || s.laneBefore i.cursor.team i.cursor.gang s.tick l i.path.prefixAddr pa f.size || s.behind i [l])
  let held := (s.core i.team.core).l1Find (sectorOf pa)
  let hit := held.filter fun _ => Config.l1Keeps s.tick (sectorOf pa)
  let later := fun (s : State) => s.addOp i l (f.req va pa leaf false none)
  match early, forwardAll own pa f.size, hit with
  | true, some bs, _ => s.boundLoad i l f va pa leaf bs
  | true, none, some x =>
    if x.poisoned then s.consumePoison i.cursor.team i.cursor.gang l pa i.path.prefixAddr
    else s.boundLoad i l f va pa leaf (overlay own pa ((x.data.drop (pa % 64)).take f.size))
  | true, none, none => later (if held.isSome then s.dropSector i.team.core (sectorOf pa) else s)
  | false, _, _ => later s

/-! ## Transactional accesses (R96, R219) -/

/-- The logged write of a doubleword. -/
def Tx.writeAt (x : Tx) (pa : Nat) : Option (Nat × W64 × W64 × BitVec 8) := x.writes.find? fun w => w.1 == pa / 8 * 8

/-- A doubleword with the bytes under a mask replaced. -/
def mergeBytes (v d : W64) (m : BitVec 8) : W64 :=
  pack 8 ((List.range 8).map fun k => if m.getLsbD k then field d.toNat (8 * k) 8 else field v.toNat (8 * k) 8)

/-- Lay a lane's own writes over a doubleword: no other thread sees them before the commit (R96). -/
def Tx.overlay (x : Tx) (l pa : Nat) (v : W64) : W64 :=
  match x.laneWrites.find? fun w => w.1 == l && w.2.1 == pa / 8 * 8 with
  | none => v
  | some (_, _, d, m) => mergeBytes v d m

/-- The bytes of a doubleword from an address on. -/
def bytesFrom (v : W64) (pa size : Nat) : List Byte := ((bytesOfNat 8 v.toNat).drop (pa % 8)).take size

/-- A transactional load: it binds at its home, or at its target, past the L1. Derived memory whose trace settles or
propagates may read as R122 says; a load of a transaction then takes the bytes that stand at the home, as its validation
will (DESIGN CHOICE, log 13). -/
def State.txLoad (s : State) (i : Issue) (l : Nat) (x : Tx) (f : LoadForm) (va : W64) (pa : Nat) (leaf : W64) : State :=
  let dw := pa / 8 * 8
  let tx := fun (s : State) (g : Tx → Tx) =>
    s.modGang i.cursor.team i.cursor.gang fun y => { y with tx := y.tx.map g }
  let give := fun (s : State) (v : W64) =>
    (s.boundLoad i l f va pa leaf (bytesFrom (x.overlay l pa v) pa f.size)).dropSector i.team.core (sectorOf pa)
  match x.reads.find? fun r => r.1 == dw with
  | some r => give s r.2
  | none =>
    if !isRemote pa && s.poisonedAt pa f.size then
      (tx s fun y => y.doomWith 10).boundLoad i l f va pa leaf (List.replicate f.size 0#8)
    else
      let v : W64 := BitVec.ofNat 64 (if isRemote pa then natOfBytes ((i.path.fetchedBytes? dw 8).getD []) else s.homeRead dw 8)
      if x.reads.length ≥ 512 then give (tx s fun y => y.doomWith 2) v
      else give (tx s fun y => { y with reads := y.reads ++ [(dw, v)] }) v

/-- The mask and data of a store within its doubleword. -/
def storeMask (pa : Nat) (n : Nat) : BitVec 8 := BitVec.ofNat 8 ((2 ^ n - 1) <<< (pa % 8))

def storeData (pa : Nat) (bs : List Byte) : W64 := BitVec.ofNat 64 (natOfBytes bs <<< (8 * (pa % 8)))

/-- What a lane has written itself. -/
def Tx.laneStore (x : Tx) (l dw : Nat) (d : W64) (m : BitVec 8) : Tx :=
  if x.laneWrites.any fun w => w.1 == l && w.2.1 == dw then
    { x with laneWrites := x.laneWrites.map fun w =>
        if w.1 == l && w.2.1 == dw then (w.1, w.2.1, mergeBytes w.2.2.1 d m, w.2.2.2 ||| m) else w }
  else { x with laneWrites := x.laneWrites ++ [(l, dw, d, m)] }

/-- A transactional store: one entry for each doubleword. -/
def Tx.store (x : Tx) (l : Nat) (va : W64) (pa : Nat) (bs : List Byte) : Tx :=
  let m := storeMask pa bs.length
  let d := storeData pa bs
  let dw := pa / 8 * 8
  match x.writeAt pa with
  | some _ =>
    ({ x with writes := x.writes.map fun w =>
        if w.1 == dw then (w.1, w.2.1, mergeBytes w.2.2.1 d m, w.2.2.2 ||| m) else w } : Tx).laneStore l dw d m
  | none =>
    if x.writes.length ≥ 256 then x.doomWith 3
    else
      ({ x with writes := x.writes ++ [(dw, BitVec.ofNat 64 (va.toNat / 8 * 8), d, m)] } : Tx).laneStore l dw d m

/-- A gang's log region changes with what its transaction logs (R219). -/
def Team.touchLog (t : Team) (g tick : Nat) : Team :=
  { t with logs := { gang := g, tick, kept := [] } :: t.logs.filter fun a => a.gang != g }

/-! ## One lane's load and store -/

/-- How a word ends in one lane. -/
inductive Fate where
  | done
  | trap (t : Trap)
  | park (b : Blocked)
  deriving DecidableEq, Repr

/-- The trace in which the issuing task's accesses to a page are traced, if the page is tracked and it is. -/
def State.tracedAt (s : State) (i : Issue) (leaf : W64) : Option Traced :=
  if pteTracked leaf then s.traced? i.team.ctx i.team.launch i.team.task else none

/-- The issuing gang as it stands. -/
def State.gangNow (s : State) (i : Issue) : Gang := (s.gang? i.cursor.team i.cursor.gang).getD i.gang

/-- A lane's transaction, when the access is transactional. -/
def State.txAt (s : State) (i : Issue) (l : Nat) (va : W64) : Option Tx :=
  let g := s.gangNow i
  if g.inTx l && !inPrivate i.team (i.thread l) va then g.tx else none

/-- Whether the filter of the issuing gang holds a granule. -/
def State.filtered (s : State) (i : Issue) (va : W64) : Bool := (s.gangNow i).filter.contains (.granule (granuleOf va))

/-- A load of derived memory that R122 leaves open: by a task outside the trace while the trace settles or propagates,
or by a traced task with recording off while the writer is not LIVE (R111). -/
def State.loadsOpen (s : State) (i : Issue) (l : Nat) (va leaf : W64) : Bool :=
  pteDerived leaf &&
    match s.tracedAt i leaf with
    | none => s.unsettled i.team.ctx
    | some _ => !(i.thread l).recording && !s.writerSettled i.team.ctx (granuleOf va)

/-- A load that R122 leaves open binds as it issues; poison it consumes like any other (R328). -/
def State.openLoad (s : State) (i : Issue) (l : Nat) (f : LoadForm) (va : W64) (pa : Nat) (leaf : W64) : State :=
  if s.poisonedAt pa f.size then s.consumePoison i.cursor.team i.cursor.gang l pa i.path.prefixAddr
  else s.boundLoad i l f va pa leaf (s.unsettledBytes i.team.ctx l va pa f.size)

/-- A load that is neither recorded nor transactional. -/
def State.outsideLoad (s : State) (i : Issue) (l : Nat) (f : LoadForm) (va : W64) (pa : Nat) (leaf : W64) : State :=
  if s.loadsOpen i l va leaf then s.afterLower i l pa f.size fun s => s.openLoad i l f va pa leaf
  else s.plainLoad i l f va pa leaf

/-- What the recorder reads for a traced access of a granule (R108 to R111). -/
def State.recorderAt (s : State) (i : Issue) (va leaf : W64) : State :=
  if (s.tracedAt i leaf).isSome then s.recorderReads i.team.ctx (some i.team.task) [.granule (granuleOf va)] else s

/-- One lane of a load (R207). -/
def State.loadLane (s : State) (i : Issue) (l : Nat) (f : LoadForm) (va : W64) (pa : Nat) (leaf : W64) : State × Fate :=
  let s := if (i.thread l).recording then s.recorderAt i va leaf else s
  match s.txAt i l va, s.tracedAt i leaf with
  | some _, some _ => (s, .trap { cause := Cause.traceconflict, info := va })
  | some x, none =>
    ((s.afterLower i l pa f.size fun s => s.txLoad i l x f va pa leaf).modTeam i.cursor.team fun t =>
      t.touchLog i.cursor.gang s.tick, .done)
  | none, some t =>
    if (i.thread l).recording then
      let hit := s.filtered i va
      match t.readFate (granuleOf va) (pteDerived leaf) (i.thread l).claimsDone with
      | .order => (s, .trap { cause := Cause.traceorder, info := granuleAddr (granuleOf va) })
      | .wait => (s, .park (.writer i.team.ctx (granuleOf va)))
      | .proceed a =>
        match s.recordRead t i.cursor.team i.cursor.gang (.granule (granuleOf va)) a with
        | (s, some n) => (s, .trap { cause := Cause.tracefull, info := BitVec.ofNat 64 n })
        | (s, none) => (if hit then s.plainLoad i l f va pa leaf
            else s.afterLower i l pa f.size fun s => s.homeLoad i l f va pa leaf, .done)
    else (s.outsideLoad i l f va pa leaf, .done)
  | none, none => (s.outsideLoad i l f va pa leaf, .done)

/-- A traced store is applied at its home as it issues: the L1 sees it at once (R86, R110). -/
def State.appliedStore (s : State) (i : Issue) (va : W64) (pa : Nat) (bs : List Byte) : State :=
  let s := (s.modCore i.team.core fun c => c.l1Store pa bs).touchLine pa
  if inTeamPrivate i.team va then s else s.modTask i.team.task fun t => t.wrote va bs

/-- One lane of a store (R207). -/
def State.storeLane (s : State) (i : Issue) (l : Nat) (va : W64) (pa : Nat) (leaf : W64) (bs : List Byte) : State × Fate :=
  let s := s.recorderAt i va leaf
  let acting := pteTracked leaf && (s.actingTrace? i.team.ctx).isSome
  match s.tracedAt i leaf with
  | some t =>
    if (s.txAt i l va).isSome then (s, .trap { cause := Cause.traceconflict, info := va })
    else
      match t.storeFate (granuleOf va) (pteDerived leaf) with
      | .conflict => (s, .trap { cause := Cause.traceconflict, info := va })
      | .order => (s, .trap { cause := Cause.traceorder, info := granuleAddr (granuleOf va) })
      | .full =>
        (s.failTrace i.team.ctx Cause.tracefull 16#64 false, .trap { cause := Cause.tracefull, info := 16#64 })
      | .apply => ((s.tracedStore t va pa bs).appliedStore i va pa bs, .done)
  | none =>
    if acting then (s, .trap { cause := Cause.edit, info := va })
    else if (s.txAt i l va).isSome then
      ((s.modTeam i.cursor.team fun t => t.touchLog i.cursor.gang s.tick).modGang i.cursor.team i.cursor.gang fun g =>
        { g with tx := g.tx.map fun x => x.store l va pa bs }, .done)
    else (s.addStore i l va pa bs .plain (!inTeamPrivate i.team va), .done)

/-! ## The shape of a word that accesses memory -/

/-- Why a word cannot act yet: its path stays at it, or its path parks. -/
inductive Stall where
  | hold
  /-- it needs n bytes of the system window, for a transaction or not -/
  | fetch (pa n : Nat) (tx : Bool)
  | park (b : Blocked)
  deriving DecidableEq, Repr

/-- One lane of such a word, with its address as translated. -/
structure Reached where
  lane : Nat
  access : Access
  pa : Nat
  leaf : W64
  deriving DecidableEq, Repr

/-- Ask for bytes of the system window that the word that issues needs; the word stays until they have come. -/
def State.fetchRemote (s : State) (i : Issue) (pa n : Nat) (tx : Bool) : State :=
  let s := s.hold i
  if s.remotes.any fun r => r.reader == some i.cursor then s
  else
    s.sendRead pa n fun r =>
      { r with reader := some i.cursor, commit := if tx then some (i.cursor.team, i.cursor.gang) else none }

/-- Every thread of the path parks at the word. -/
def State.parkPath (s : State) (i : Issue) (b : Blocked) : State :=
  (((lanesOf i.path.lanes).foldl (fun s l => s.parkLane i l b) (s.beginWord i)).modGang i.cursor.team i.cursor.gang fun g =>
    g.dropPath i.cursor.path)

/-- Perform a word lane by lane, in a team that has not been killed meanwhile. -/
def laneFold (team : Nat) (act : Reached → State → State × Fate) : List Reached → State → State × List (Nat × Fate)
  | [], s => (s, [])
  | r :: rs, s =>
    if ((s.team? team).bind Team.kill).isSome then (s, [])
    else
      let q := act r s
      let p := laneFold team act rs q.1
      (p.1, (r.lane, q.2) :: p.2)

/-- The traps among fates. -/
def fateTraps (fs : List (Nat × Fate)) : List (Nat × Trap) :=
  fs.filterMap fun f =>
    match f.2 with
    | .trap t => some (f.1, t)
    | _ => none

/-- Park the lanes whose fate says so. -/
def State.parkFates (s : State) (i : Issue) (fs : List (Nat × Fate)) : State :=
  fs.foldl (fun s f =>
    match f.2 with
    | .park b => s.parkLane i f.1 b
    | _ => s) s

/-- The traps of a word, lowest lane first. -/
def sortTraps (ts : List (Nat × Trap)) : List (Nat × Trap) := sortBy (fun a b => decide (a.1 < b.1)) ts

/-- What lanes of a word meet on the way to their addresses. -/
structure Approach where
  good : List Reached
  traps : List (Nat × Trap)
  misses : List (Nat × W64 × Nat)
  deriving DecidableEq, Repr

/-- Translate the accesses of some lanes. -/
def State.approach (s : State) (i : Issue) (ls : List Nat) (access : Lane → Access) : Approach :=
  let xs := ls.map fun l => (l, access (i.lane l), s.reach i.team.core i.team.ctx (access (i.lane l)))
  { good := xs.filterMap fun x =>
      match x.2.2 with
      | .ok pa leaf => some { lane := x.1, access := x.2.1, pa, leaf }
      | _ => none
    traps := xs.filterMap fun x =>
      match x.2.2 with
      | .trap t => some (x.1, t)
      | _ => none
    misses := xs.filterMap fun x =>
      match x.2.2 with
      | .miss => some (x.1, x.2.1.va, x.2.1.code)
      | _ => none }

/-- Under DET a path stops at a synchronising word until its lanes have had their grants (R295). -/
def State.stopAt (s : State) (i : Issue) (acts : List (Nat × SyncAct)) : State :=
  s.modPath i.cursor fun p => { p with grants := acts, held := true }

/-- How a word that accesses memory is made. `dooms` says that a member of an open transaction does not perform it
(R219). -/
structure MemWord where
  flagged : Bool
  dooms : Bool
  /-- the operation that the word performs for a lane, if it is a synchronising word (R54) -/
  sync : Option (Issue → Reached → SyncAct)
  check : Lane → Option Trap
  access : Lane → Access
  stall : State → Issue → List Reached → Option Stall
  /-- what the word does for a lane in a replay, at an address that nothing translates (R338) -/
  again : Issue → Reached → State → State × Fate := fun _ _ s => (s, .done)
  act : Issue → Reached → State → State × Fate

/-- Run such a word once its lanes' addresses are translated. -/
def MemWord.run (w : MemWord) (s : State) (i : Issue) (doomed : List Nat) (bad : List (Nat × Trap))
    (a : Approach) : State :=
  let s := s.beginWord i
  let s := if doomed.isEmpty then s else s.modGang i.cursor.team i.cursor.gang fun g => g.doom 5
  let traced := a.good.filter fun r => (s.tracedAt i r.leaf).isSome
  let plain := a.good.filter fun r => (s.tracedAt i r.leaf).isNone
  let acts := if i.det then (w.sync.map fun f => plain.map fun r => (r.lane, f i r)).getD [] else []
  if !acts.isEmpty then
    (s.raiseAll i (sortTraps (bad ++ a.traps ++ traced.map fun r =>
      (r.lane, { cause := Cause.traceconflict, info := r.access.va })))).stopAt i acts
  else
  let s := if w.flagged then s.modGang i.cursor.team i.cursor.gang fun g => g.issueFlag i.path else s
  let q := laneFold i.cursor.team (w.act i) a.good s
  ((q.1.parkFates i q.2).raiseAll i (sortTraps (bad ++ a.traps ++ fateTraps q.2))).retireWord i

/-- Run such a word in a replay. -/
def MemWord.rerun (w : MemWord) (s : State) (i : Issue) (ok : List Nat) (bad : List (Nat × Trap)) : State :=
  let rs := ok.map fun l => ({ lane := l, access := w.access (i.lane l), pa := 0, leaf := 0#64 } : Reached)
  let q := laneFold i.cursor.team (w.again i) rs (s.beginWord i)
  ((q.1.raiseAll i (sortTraps (bad ++ fateTraps q.2))).retireWord i).settleFlags i.cursor.team i.cursor.gang

/-- The meaning of a word that accesses memory: walks first, then any wait, then the word. -/
def MemWord.exec (w : MemWord) (s : State) : Host.Outcome State Fault Refusal :=
  match s.issue with
  | none => .fault .noIssuingPath
  | some i =>
    let ok := i.active.filter fun l => (w.check (i.lane l)).isNone
    let bad := i.active.filterMap fun l => (w.check (i.lane l)).map fun t => (l, t)
    if i.replays then .next (w.rerun s i ok bad)
    else
    let doomed := ok.filter fun l => w.dooms && i.gang.inTx l
    let a := s.approach i (ok.filter fun l => !doomed.contains l) w.access
    if !a.misses.isEmpty then .next (s.startWalks i a.misses)
    else
      match w.stall s i a.good with
      | some .hold => .next (s.hold i)
      | some (.fetch pa n tx) => .next (s.fetchRemote i pa n tx)
      | some (.park b) => .next (s.parkPath i b)
      | none => .next (w.run s i doomed bad a)

/-! ## Waits of loads and stores -/

/-- Whether a lane of the word stands behind a FENCE REL or AR whose release is not complete (R89, R214). -/
def fenceHolds (i : Issue) (ls : List Nat) : Bool := i.gang.unacked != 0 && ls.any fun l => (i.thread l).relHold

/-- The doubleword of the system window that a transactional load has yet to fetch. -/
def State.txFetch (s : State) (i : Issue) (r : Reached) : Option Nat :=
  match s.txAt i r.lane r.access.va with
  | some x =>
    let dw := r.pa / 8 * 8
    if isRemote r.pa && (x.reads.all fun y => y.1 != dw) && (i.path.fetchedBytes? dw 8).isNone then some dw else none
  | none => none

/-- Whether a load must wait: a read that binds at its home as it issues stands behind own accesses to its bytes
(R87), and behind what the thread's acquires put before it (R95), and the lower lanes' reads of its bytes, which bind
before it (R208), stand behind none of these; a recorded read whose writer is not LIVE parks its path (R111). -/
def loadStall (s : State) (i : Issue) (rs : List Reached) : Option Stall :=
  let homeBound := fun (r : Reached) =>
    (s.txAt i r.lane r.access.va).isSome ||
      ((s.tracedAt i r.leaf).isSome && (i.thread r.lane).recording && !s.filtered i r.access.va)
  let stands := fun (r : Reached) (stores : Bool) =>
    s.behind i [r.lane] || s.pendsBefore i.team.core i.cursor.team i.cursor.gang r.lane (i.thread r.lane).memSeq r.pa
      r.access.size stores
  let waits := rs.filterMap fun r =>
    match s.txAt i r.lane r.access.va, s.tracedAt i r.leaf with
    | none, some t =>
      if (i.thread r.lane).recording
          && t.readFate (granuleOf r.access.va) (pteDerived r.leaf) (i.thread r.lane).claimsDone == .wait then
        some (granuleOf r.access.va)
      else none
    | _, _ => none
  match waits with
  | g :: _ => some (.park (.writer i.team.ctx g))
  | [] =>
    if rs.any fun r => homeBound r && (stands r true || rs.any fun b =>
        decide (b.lane < r.lane) && overlaps b.pa b.access.size r.pa r.access.size && stands b false) then some .hold
    else (rs.findSome? (s.txFetch i)).map fun dw => .fetch dw 8 true

/-- Whether a store must wait: behind a fence; and a traced store is applied as it issues, so behind the store path and
its thread's loads (R86, R87). -/
def storeStall (s : State) (i : Issue) (rs : List Reached) : Option Stall :=
  if fenceHolds i (rs.map Reached.lane) then some .hold
  else if rs.any fun r => (s.tracedAt i r.leaf).isSome &&
      (!s.pathEmpty i.team.core || s.behindReads i [r.lane]) then some .hold
  else none

end Sys2Proof.Machine
end

