-- ==== Sys2Proof/Machine/Caddy.lean ====
section
/-! DEFINITION. The caddy (R125 to R129, R335, R336): claim entries, the operations of Table 5.11, results that reach
threads, hand-over, remaking and unfulfilling. -/

namespace Sys2Proof.Machine

/-! ## Entries (R125, R126, R128) -/

/-- CaddyHome of R125. -/
def caddyHome (name : BitVec 128) : Nat :=
  field (mix 0#64 (name.extractLsb' 0 64) 0xFF#8 + mix 8#64 (name.extractLsb' 64 64) 0xFF#8).toNat 62 2

def State.claim? (s : State) (name : BitVec 128) : Option Claim := s.claims.find? fun e => e.name == name

def State.modClaim (s : State) (name : BitVec 128) (f : Claim → Claim) : State :=
  { s with claims := s.claims.map fun e => if e.name == name then f e else e }

def State.dropClaim (s : State) (name : BitVec 128) : State :=
  { s with claims := s.claims.filter fun e => e.name != name }

/-- The entries of a die that are not ABSENT. -/
def State.claimsOf (s : State) (die : Nat) : List Claim := s.claims.filter fun e => caddyHome e.name == die

/-- Entries that a die can hold. -/
def State.claimRoom (s : State) : Nat := 131072 + s.backingEntries / 4

/-- A DONE entry. -/
def Claim.done (e : Claim) : Bool := e.maker.isNone

/-- The state of an entry as TRAPINFO names it: 0 ABSENT, 1 MAKING, 2 DONE (R316). -/
def entryState : Option Claim → Nat
  | none => 0
  | some e => if e.done then 2 else 1

/-- Whether a node records an entry as read or fulfilled. -/
def Node.pins (n : Node) (name : BitVec 128) : Bool :=
  n.reads.contains (.claim name) || n.newReads.contains (.claim name) || n.fulfilled.contains name

/-- Whether an entry is pinned (R128). -/
def State.pinned (s : State) (name : BitVec 128) : Bool :=
  s.traces.any fun t => t.acts && t.nodes.any fun n => n.pins name

/-- The DONE entry of a die that makes room: the one used longest ago that is not pinned. -/
def State.evictable (s : State) (die : Nat) : Option Claim :=
  leastBy (fun a b => decide (a.lastUse < b.lastUse)) ((s.claimsOf die).filter fun e => e.done && !s.pinned e.name)

/-- The entries of a die that lie in its SRAM. -/
def State.sramClaims (s : State) (die : Nat) : List Claim := (s.claimsOf die).filter fun e => !e.backed

/-- An entry is used: it lies in its die's SRAM; where that is full, the entry used longest ago overflows to the backing
area (R128 does not say which; DESIGN CHOICE, log 37). -/
def State.useClaim (s : State) (name : BitVec 128) : State :=
  let s := s.modClaim name fun x => { x with lastUse := s.tick, backed := false }
  let held := s.sramClaims (caddyHome name)
  if held.length ≤ 131072 then s
  else
    match leastBy (fun a b => decide (a.lastUse < b.lastUse)) (held.filter fun e => e.name != name) with
    | some e => s.modClaim e.name fun x => { x with backed := true }
    | none => s

/-- Make room for a name on its home die, if there can be room. -/
def State.claimSpace (s : State) (die : Nat) : Option State :=
  if (s.claimsOf die).length < s.claimRoom then some s
  else (s.evictable die).map fun e => s.dropClaim e.name

/-- The least index that no entry of a die has. -/
def State.freeIndex (s : State) (die : Nat) : Nat :=
  let used := (s.claimsOf die).map Claim.index
  ((List.range (used.length + 1)).find? fun k => !used.contains k).getD 0

/-! ## The trace's side of an entry (R129) -/

/-- Mark every registered reader of an entry. -/
def State.markClaimReaders (s : State) (name : BitVec 128) : State :=
  (s.traces.map Trace.ctx).foldl (fun s ctx => s.markReaders ctx (.claim name) none) s

/-- The acting trace in which a task has a node. -/
def State.traceOfTask? (s : State) (task : Nat) : Option Trace :=
  s.traces.find? fun t => t.acts && (t.node? task).isSome

/-- Change a task's node in its acting trace. -/
def State.modNode (s : State) (task : Nat) (f : Node → Node) : State :=
  match s.traceOfTask? task with
  | some t => s.modTrace t.ctx fun x => x.modNode task f
  | none => s

/-- Whether a task runs as a re-execution and another is its descendant. -/
def State.mayTakeOver (s : State) (task : Nat) (writer : Option Nat) : Bool :=
  match writer, s.traceOfTask? task with
  | some w, some t => ((t.node? task).map Node.isRerun).getD false && t.descends w task
  | _, _ => false

/-- A thread has obtained DONE from an entry (R112), and a traced one's read is recorded; a trace store without room
fails the trace with no trap (R129, R332). -/
def State.claimRead (s : State) (team gang lane : Nat) (name : BitVec 128) : State :=
  match s.team? team, s.thread? team gang lane with
  | some t, some th =>
    let s := s.modThread team gang lane fun x =>
      if x.claimsDone.contains name then x else { x with claimsDone := x.claimsDone ++ [name] }
    let s := if th.recording && (s.traced? t.ctx t.launch t.task).isSome then s.recorderReads t.ctx (some t.task) [.claim name] else s
    match s.traced? t.ctx t.launch t.task with
    | some tr => if th.recording then (s.recordRead tr team gang (.claim name) false).1 else s
    | none => s
  | _, _ => s

/-- Bytes that the trace store lacks for the recorded read that a CLAIM with an immediate DONE makes, if it lacks any. -/
def State.claimLack (s : State) (t : Team) (gang : Nat) (th : Thread) (name : BitVec 128) : Option Nat :=
  match s.claim? name with
  | some e =>
    if e.done && th.recording && !s.mayTakeOver t.task e.writer
        && !((s.gang? t.uid gang).map fun g => g.filter.contains (.claim name)).getD false then
      (s.traced? t.ctx t.launch t.task).bind fun tr => tr.readLack (.claim name)
    else none
  | none => none

/-- A CLAIM has its result; its delivery is another step. -/
def State.giveClaim (s : State) (op code : Nat) (h : W64) : State :=
  match s.op? op with
  | some o =>
    match o.kind with
    | .claim n d e none =>
      let s := s.modOp op fun o => { o with kind := .claim n d e (some (code, h)) }
      if code == 0 then s.claimRead o.team o.gang o.lane n else s
    | _ => s
  | none => s

/-! ## The operations of Table 5.11 -/

/-- A new MAKING entry. -/
def Claim.fresh (name : BitVec 128) (index maker now : Nat) : Claim :=
  { name, index, maker := some maker, queue := [], handle := none, oldHandle := none, writer := none, lastUse := now, backed := false }

/-- Hold a DONE entry for remaking by a task (R129). -/
def Claim.remakeBy (e : Claim) (task : Nat) : Claim :=
  { e with maker := some task, oldHandle := e.handle, handle := none, writer := some task }

/-- A CLAIM of an ABSENT entry. -/
def State.claimAbsent (s : State) (op task : Nat) (name : BitVec 128) : State :=
  match s.claimSpace (caddyHome name) with
  | none => s.giveClaim op 4 0#64
  | some s =>
    (State.useClaim { s with claims := s.claims ++ [Claim.fresh name (s.freeIndex (caddyHome name)) task s.tick] } name).giveClaim
      op 1 0#64

/-- A CLAIM of a DONE entry: its handle, or the taking over of an entry whose writer is a descendant (R129). -/
def State.claimDone (s : State) (op task : Nat) (e : Claim) : State :=
  if s.mayTakeOver task e.writer then
    let s := match e.writer with
      | some w => s.modNode w fun n => { n.mark with fulfilled := n.fulfilled.filter fun x => x != e.name }
      | none => s
    (s.modClaim e.name fun x => x.remakeBy task).giveClaim op 1 0#64
  else s.giveClaim op 0 (e.handle.getD 0#64)

/-- One CLAIM at its home sync engine. -/
def State.performClaim (s : State) (op team task : Nat) (name : BitVec 128) (nonBlocking : Bool) : State :=
  match s.claim? name with
  | none => s.claimAbsent op task name
  | some e =>
    let s := s.useClaim name
    match e.maker with
    | none => s.claimDone op task e
    | some m =>
      if m == task then s.giveClaim op 1 0#64
      else if nonBlocking then s.giveClaim op 3 0#64
      else s.modClaim name fun x => { x with queue := x.queue ++ [{ op, team, task }] }

/-- A traced FULFIL makes its task the writer, pins the entry, and marks the readers of another handle (R129). -/
def State.fulfilTraced (s : State) (task : Nat) (e : Claim) (h : W64) : State :=
  match s.traceOfTask? task with
  | none => s.modClaim e.name fun x => { x with writer := none }
  | some _ =>
    let s := (s.modClaim e.name fun x => { x with writer := some task }).modNode task fun n =>
      if n.fulfilled.contains e.name then n else { n with fulfilled := n.fulfilled ++ [e.name] }
    match e.oldHandle with
    | some o => if o == h then s else s.markClaimReaders e.name
    | none => s

/-- FULFIL of an entry by its maker. -/
def State.fulfil (s : State) (task : Nat) (e : Claim) (h : W64) : State :=
  let s := (s.useClaim e.name).modClaim e.name fun x => { x with maker := none, handle := some h, oldHandle := none, queue := [] }
  e.queue.foldl (fun s w => s.giveClaim w.op 0 h) (s.fulfilTraced task e h)

/-- The old handle of an entry no longer stands: its readers are marked, and its writer has not fulfilled it (R129). -/
def State.loseHandle (s : State) (e : Claim) : State :=
  (match e.writer with
   | some w => s.modNode w fun n => { n with fulfilled := n.fulfilled.filter fun x => x != e.name }
   | none => s).markClaimReaders e.name

/-- Hand an entry over to its oldest waiter, or let it become ABSENT; one held for remaking loses its old handle
(R126, R129, R336). -/
def State.handOver (s : State) (e : Claim) : State :=
  let s := if e.oldHandle.isSome then s.loseHandle e else s
  match e.queue with
  | [] => s.dropClaim e.name
  | w :: ws =>
    (s.modClaim e.name fun x =>
      { x with maker := some w.task, queue := ws, handle := none, oldHandle := none, writer := none }).giveClaim w.op 2 0#64

/-- HoldForRemake of R129, for every entry that a task wrote. -/
def State.holdForRemake (s : State) (task : Nat) : State :=
  { s with claims := s.claims.map fun e => if e.done && e.writer == some task then e.remakeBy task else e }

/-- Unfulfil of R129. -/
def State.unfulfil (s : State) (name : BitVec 128) : State :=
  match s.claim? name with
  | none => s
  | some e => s.handOver { e with oldHandle := some ((e.oldHandle.or e.handle).getD 0#64) }

/-- Every entry whose maker is a task is handed over (R127, R303). -/
def State.handOverAll (s : State) (task : Nat) : State :=
  ((s.claims.filter fun e => e.maker == some task).map Claim.name).foldl (fun s n =>
    match s.claim? n with
    | some e => s.handOver e
    | none => s) s

/-- FULFIL, RELINQ or FORGET (0, 1, 2) of one name by a task; a refusal is the entry's state. -/
def State.performEntryOp (s : State) (task fn : Nat) (name : BitVec 128) (h : W64) : State × Option Nat :=
  let e := s.claim? name
  match fn, e with
  | 0, some e => if e.maker == some task then (s.fulfil task e h, none) else (s, some (entryState (some e)))
  | 0, none => (s, some 0)
  | 1, some e => if e.maker == some task then (s.handOver e, none) else (s, some (entryState (some e)))
  | 1, none => (s, some 0)
  | _, some e => if e.done && !s.pinned name then (s.dropClaim name, none) else (s, some (entryState (some e)))
  | _, none => (s, none)

end Sys2Proof.Machine
end

