-- ==== Sys2Proof/Machine/Desc.lean ====
section
/-! DEFINITION. Task descriptors and what a core can admit: Tables 2.3 to 2.6, R42, R43, R45, R46, and the checks of R246
on a descriptor. -/

namespace Sys2Proof.Machine

/-! ## Descriptor fields (Tables 2.4 and 2.5) -/

abbrev Desc := BitVec 512

/-- A field of a descriptor. -/
def Desc.get (d : Desc) (lo n : Nat) : Nat := field d.toNat lo n

def Desc.entry (d : Desc) : W64 := d.extractLsb' 0 64
def Desc.gangs (d : Desc) : Nat := d.get 64 4 + 1
def Desc.regs8 (d : Desc) : Nat := d.get 68 6
def Desc.scratchUnits (d : Desc) : Nat := d.get 74 7
def Desc.accTiles (d : Desc) : Nat := d.get 81 8
def Desc.barriers (d : Desc) : Nat := d.get 89 11
def Desc.engCtx (d : Desc) : Nat := d.get 100 5
def Desc.argPtr (d : Desc) : Bool := d.getLsbD 105
def Desc.privUnits (d : Desc) : Nat := d.get 128 12
/-- Inline argument k, or the argument pointer for k = 0. -/
def Desc.arg (d : Desc) (k : Nat) : W64 := d.extractLsb' (256 + 64 * k) 64

/-- A descriptor from its bytes in memory. -/
def descOf (bs : List Byte) : Desc := BitVec.ofNat 512 (natOfBytes bs)

/-! ## A launch's limits (Tables 2.2, 2.3 and 2.6) -/

def Launch.regCap (l : Launch) : Nat := field l.partition.toNat 0 8
def Launch.scratchCap (l : Launch) : Nat := field l.partition.toNat 8 8
def Launch.accCap (l : Launch) : Nat := field l.partition.toNat 16 8

/-- Energy weight of a gang of a class (Table 2.6). -/
def energyWeight : Nat → Nat
  | 0 => 1
  | 1 => 2
  | 2 => 3
  | 3 => 4
  | 4 => 6
  | 5 => 8
  | 6 => 12
  | _ => 16

def Launch.energy (l : Launch) : Nat := energyWeight (field l.control.toNat 8 3)

/-- The cores that a launch allows, ascending: those of its mask, or all, but for retired ones (R46, R354). -/
def State.allowedCores (s : State) (l : Launch) : List Nat :=
  (List.range 288).filter fun c => (l.coreMask = 0#320 || l.coreMask.getLsbD c) && !(s.core c).retired

/-! ## Demand (R42) -/

def regUnits (gangs regs8 : Nat) : Nat := (gangs * regs8 + 7) / 8
def accUnits (tiles : Nat) : Nat := (tiles + 15) / 16

def Desc.poolUnits (d : Desc) : Nat := regUnits d.gangs d.regs8 + d.scratchUnits + accUnits d.accTiles

/-- Bytes of the private block of a team (R37). -/
def Desc.privBytes (d : Desc) : Nat := d.gangs * 32 * 256 * d.privUnits

/-! ## CheckDesc, item 2 (R246) -/

/-- The bits of a descriptor that must be zero. -/
def Desc.mbz (d : Desc) : Desc :=
  d &&& (BitVec.ofNat 512 ((2 ^ 64 - 2 ^ 42) * 2 ^ 64 + (2 ^ 256 - 2 ^ 140)))

/-- Whether the demand exceeds the partition caps or a core's pool. -/
def Desc.exceeds (d : Desc) (s : State) (l : Launch) : Bool :=
  regUnits d.gangs d.regs8 > l.regCap || d.scratchUnits > l.scratchCap || accUnits d.accTiles > l.accCap
    || d.poolUnits > 96 || (s.allowedCores l).all fun c => decide (d.gangs * l.energy > (s.core c).budget)

/-- The byte offsets of the fields that item 2 finds at fault, MBZ fields apart, lowest first. -/
def Desc.faults (d : Desc) : List Nat :=
  [(0, decide (d.entry.toNat % 4 != 0) || !(d.entry.extractLsb' 0 56).signExtend 64 == d.entry),
   (8, d.regs8 == 0 || decide (d.regs8 > 32)), (9, decide (d.scratchUnits > 96)), (10, decide (d.accTiles > 128)),
   (11, decide (d.barriers > 1024)), (12, decide (d.engCtx > 16)), (16, d.privUnits == 0)].filterMap fun x =>
    if x.2 then some x.1 else none

/-- Whether item 2 of R246 fails. -/
def Desc.bad (d : Desc) (s : State) (l : Launch) : Bool := d.mbz != 0#512 || !d.faults.isEmpty || d.exceeds s l

/-! ## What stands on a core -/

/-- Whether a team holds the resources of its core: one that is SAVED holds only its private block. -/
def Team.resident (t : Team) : Bool := t.state != .saved

def State.residents (s : State) (core : Nat) : List Team := s.teams.filter fun t => t.core == core && t.resident

def Team.poolUnits (t : Team) : Nat := regUnits t.gangs.length t.regs8 + t.scratchUnits + accUnits t.accTiles

/-- The launch of a team has a property. -/
def State.launchOf (s : State) (t : Team) : Option Launch := s.launch? t.launch

def sumOf {α : Type} (f : α → Nat) (xs : List α) : Nat := (xs.map f).sum

/-- The units that paired teams of the even core reserve on the odd core of a pair (R43 item 8). -/
def State.followerUnits (s : State) (core : Nat) : Nat :=
  if core % 2 == 0 then 0
  else
    sumOf (fun t => accUnits t.accTiles)
      ((s.residents (core - 1)).filter fun t => ((s.launchOf t).map Launch.paired).getD false)

def State.poolUsed (s : State) (core : Nat) : Nat := sumOf Team.poolUnits (s.residents core) + s.followerUnits core

def State.slotsUsed (s : State) (core : Nat) : List Nat := (s.residents core).flatMap fun t => t.gangs.map Gang.slot

def State.freeSlots (s : State) (core : Nat) : List Nat := (List.range 64).filter fun k => !(s.slotsUsed core).contains k

/-- The first ids of the free ranges of n named barriers. -/
def State.freeBarriers (s : State) (core n : Nat) : List Nat :=
  (List.range (1025 - n)).filter fun b => (s.residents core).all fun t =>
    t.barriers.isEmpty || decide (b + n ≤ t.barBase) || decide (t.barBase + t.barriers.length ≤ b)

def State.freeContexts (s : State) (core : Nat) : List Nat :=
  (List.range 16).filter fun k => (s.residents core).all fun t => !t.engMap.getLsbD k

def State.energyUsed (s : State) (core : Nat) : Nat :=
  sumOf (fun t => t.gangs.length * ((s.launchOf t).map Launch.energy).getD 0) (s.residents core)

/-! ## The private arena (R37, R43 item 9) -/

def Team.privBytes (t : Team) : Nat := t.gangs.length * 32 * 256 * t.privUnits

/-- Whether a range of a context's arena is free. -/
def State.arenaFree (s : State) (c : Context) (a n : Nat) : Bool :=
  decide (c.privBase ≤ a) && decide (a + n ≤ c.privBase + c.privSize) && a % 256 == 0 &&
    (s.teams.filter fun t => t.ctx == c.id).all fun t =>
      decide (a + n ≤ t.privBlock.toNat) || decide (t.privBlock.toNat + t.privBytes ≤ a)

/-- Where blocks may begin that leave no gap below them. -/
def State.arenaStarts (s : State) (c : Context) : List Nat :=
  ((c.privBase + 255) / 256 * 256) ::
    (s.teams.filter fun t => t.ctx == c.id).map fun t => t.privBlock.toNat + t.privBytes

/-- The place of a task's block: where the device chooses, if that is free, or else above another block. -/
def State.placeBlock (s : State) (c : Context) (task n : Nat) : Option Nat :=
  let want := c.privBase + Config.privateBlock task % (c.privSize + 1)
  if s.arenaFree c want n then some want else (s.arenaStarts c).find? fun a => s.arenaFree c a n

/-! ## Whether a core admits a team (R43) -/

/-- What a team asks of a core. -/
structure Ask where
  gangs : Nat
  regs8 : Nat
  scratch : Nat
  tiles : Nat
  barriers : Nat
  contexts : Nat
  deriving DecidableEq, Repr

def Desc.ask (d : Desc) : Ask :=
  { gangs := d.gangs, regs8 := d.regs8, scratch := d.scratchUnits, tiles := d.accTiles, barriers := d.barriers,
    contexts := d.engCtx }

def Team.ask (t : Team) : Ask :=
  { gangs := t.gangs.length, regs8 := t.regs8, scratch := t.scratchUnits, tiles := t.accTiles,
    barriers := t.barriers.length, contexts := t.timelines.length }

def Ask.pool (a : Ask) : Nat := regUnits a.gangs a.regs8 + a.scratch + accUnits a.tiles

/-- Items 1 to 8 of R43. -/
def State.admits (s : State) (l : Launch) (c : Context) (a : Ask) (core : Nat) : Bool :=
  let mine := (s.residents core).filter fun t => t.launch == l.uid
  let ours := (s.residents core).filter fun t => t.ctx == c.id
  decide (a.gangs ≤ (s.freeSlots core).length) && decide (s.poolUsed core + a.pool ≤ 96)
    && decide (sumOf (fun t => regUnits t.gangs.length t.regs8) mine + regUnits a.gangs a.regs8 ≤ l.regCap)
    && decide (sumOf Team.scratchUnits mine + a.scratch ≤ l.scratchCap)
    && decide (sumOf (fun t => accUnits t.accTiles) mine + accUnits a.tiles ≤ l.accCap)
    && decide (sumOf (fun t => t.gangs.length) ours + a.gangs ≤ c.gangQuota)
    && decide (sumOf Team.poolUnits ours + a.pool ≤ c.poolQuota)
    && !(s.freeBarriers core a.barriers).isEmpty && decide (a.contexts ≤ (s.freeContexts core).length)
    && decide (s.energyUsed core + a.gangs * l.energy ≤ (s.core core).budget)
    && (!l.paired || (core % 2 == 0 && (s.allowedCores l).contains (core + 1)
          && decide (s.poolUsed (core + 1) + accUnits a.tiles ≤ 96)))

/-! ## Placement (R45, R46) -/

/-- The core with the most free gang slots among those that admit; ties go to the lowest number. -/
def State.roomiest (s : State) (cores : List Nat) : Option Nat :=
  leastBy (fun a b => decide ((s.freeSlots b).length < (s.freeSlots a).length)) cores

/-- PosKey's core under DET (R46). -/
def State.detCore (s : State) (l : Launch) (posKey : W64) : Option Nat :=
  let cs := s.allowedCores l
  cs[(detHash l.seed posKey).toNat % cs.length]?

/-- The cores on which a task may run: an audit's third run avoids two, where the launch allows others (R339). -/
def State.coresFor (s : State) (l : Launch) (k : Task) : List Nat :=
  let cs := s.allowedCores l
  let others := cs.filter fun x => !k.avoid.contains x
  if others.isEmpty then cs else others

/-- Where a task or a SAVED team goes now, if a core takes it. -/
def State.placeTeam (s : State) (l : Launch) (c : Context) (k : Task) (a : Ask) : Option Nat :=
  let cs := (s.coresFor l k).filter fun x => s.admits l c a x
  if !k.avoid.isEmpty then s.roomiest cs
  else if l.det then (s.detCore l k.posKey).filter fun x => cs.contains x
  else if k.parent.isNone then s.roomiest cs
  else if cs.contains k.originCore then some k.originCore
  else (s.roomiest (cs.filter fun x => x / 72 == k.originCore / 72)).or (s.roomiest cs)

end Sys2Proof.Machine
end

