-- ==== Sys2Proof/Machine/Reexec.lean ====
section
/-! DEFINITION. Tasks and their weight (R39), trace nodes as tasks start, run again, end and are discarded
(R116, R119 to R121), digests of launches (R130, R131), propagations (R119, R252), and the accesses that the
reckoner and the launch queues make on their own. -/

namespace Sys2Proof.Machine

/-! ## Accesses of a unit of the device -/

/-- What a unit's read yields; `pending` where bytes of the system window have yet to come. -/
inductive UnitRead where
  | bytes (bs : List Byte)
  | failed (cause : Nat)
  | pending
  deriving DecidableEq, Repr

/-- Where a unit's access lands, or the cause of its failure; a page that is being zeroed for another walk gives none, and
its callers wait for it. -/
def State.unitReach (s : State) (ctx : Nat) (va : W64) (n : Need) : State × (Nat ⊕ Nat) :=
  if !canonical va then (s, .inr Cause.page)
  else
    match s.walk ctx va with
    | (s, .fault _ _) => (s, .inr Cause.page)
    | (s, .zeroing) => (s, .inr Cause.page)
    | (s, .leaf e) =>
      match leafCheck e va ctx n with
      | .ok pa _ => if isRemote pa && s.target pa == .unused then (s, .inr Cause.page) else (s, .inl pa)
      | .trap t => (s, .inr (if t.cause == Cause.addr then Cause.page else t.cause))
      | .miss => (s, .inr Cause.page)

/-- A unit reads n bytes within one page. -/
def State.unitRead (s : State) (ctx : Nat) (va : W64) (n : Nat) : State × UnitRead :=
  match s.unitReach ctx va .load with
  | (s, .inr c) => (s, if (s.walk ctx va).2 == .zeroing then .pending else .failed c)
  | (s, .inl pa) =>
    if isRemote pa then
      match s.unitBytes? pa n with
      | some bs => (s.forgetUnit pa n, .bytes bs)
      | none =>
        if s.unitFailed.contains pa then (s.forgetUnit pa n, .failed Cause.poison)
        else if s.unitAsks pa then (s, .pending)
        else (s.sendRead pa n fun r => { r with unit := true }, .pending)
    else if s.poisonedAt pa n then (s, .failed Cause.poison)
    else (s, .bytes (s.mem.readBytes pa n))

/-- A unit writes bytes within one page; a failure has a cause. -/
def State.unitWrite (s : State) (ctx : Nat) (va : W64) (bs : List Byte) : State × Option Nat :=
  match s.unitReach ctx va .store with
  | (s, .inr c) => (s, some c)
  | (s, .inl pa) =>
    if isRemote pa then
      (s.sendRequest pa 1 (requestFlit bs.length 0 0#64 0#64 ++ bs) fun r => { r with unit := true }, none)
    else (s.deviceWrite pa bs, none)

/-- Whether the page of an address is being zeroed for another walk. -/
def State.unitZeroing (s : State) (ctx : Nat) (va : W64) : Bool :=
  canonical va &&
    match s.walkTables ctx va with
    | .leaf _ _ e => pteZoa e && pteOwn e == 1
    | .fault _ _ => false

/-- A unit's write comes about, or waits until its page has been zeroed (R263). -/
def State.orLater (s : State) (w : UnitWrite) (act : State → State) : State :=
  if s.unitZeroing w.ctx w.va then { s with unitWrites := s.unitWrites ++ [w] } else act s

/-! ## Weight (R39, R119) -/

/-- What a holder of weight w gives a child and keeps, and what its debt grows by. -/
def dealt (w : Nat) : Nat × Nat × Nat := if w ≥ 2 then (w / 2, w - w / 2, 0) else (2 ^ 40, w, 1)

/-- Change the pool of a launch's trace. -/
def State.modPool (s : State) (launch : Nat) (f : Trace → Trace) : State :=
  { s with traces := s.traces.map fun t => if t.launch == launch then f t else t }

/-- A task deals weight to a child. -/
def State.dealWeight (s : State) (task : Nat) : State × Nat :=
  match s.task? task with
  | none => (s, 0)
  | some k =>
    let d := dealt k.weight
    let s := s.modTask task fun k => { k with weight := d.2.1 }
    (if k.pooled then s.modPool k.launch fun t => { t with poolDebt := t.poolDebt + d.2.2 }
     else s.modLaunch k.launch fun l => { l with debt := l.debt + d.2.2 }, d.1)

/-- The reckoner's pool deals weight to a task that it starts. -/
def State.dealFromPool (s : State) (launch : Nat) : State × Nat :=
  match s.traces.find? fun t => t.launch == launch with
  | none => (s, 0)
  | some t =>
    let d := dealt t.poolHeld
    (s.modPool launch fun t => { t with poolHeld := d.2.1, poolDebt := t.poolDebt + d.2.2 }, d.1)

/-- Weight goes back to the launch, or to the pool that dealt it. -/
def State.creditWeight (s : State) (launch w : Nat) (pooled : Bool) : State :=
  if pooled then s.modPool launch fun t => { t with poolReturned := t.poolReturned + w }
  else s.modLaunch launch fun l => { l with returned := l.returned + w }

/-- A task's weight is returned. -/
def State.returnWeight (s : State) (task : Nat) : State :=
  match s.task? task with
  | none => s
  | some k => (s.creditWeight k.launch k.weight k.pooled).modTask task fun k => { k with weight := 0 }

/-- Whether a launch's own weight is balanced. -/
def Launch.balanced (l : Launch) : Bool := l.returned == 2 ^ 63 + l.debt * 2 ^ 40

/-- Whether the reckoner's pool is balanced. -/
def Trace.balanced (t : Trace) : Bool := t.poolReturned + t.poolHeld == 2 ^ 63 + t.poolDebt * 2 ^ 40

/-! ## New tasks and nodes -/

/-- A value among n from low upward, by a free pick. While n lasts it leaves room on both sides: a 512th of the values
below it, and more above (DESIGN CHOICE, log 8). -/
def ordinalWithin (low n : Nat) (pick : Nat → Nat) : Nat :=
  let part := if n ≥ 512 then n / 512 else n / 3
  low + part + pick (max part 1) % max part 1

/-- A new task's ordinal: a value between those of the tasks of its launch that come before and after it in the
depth-first pre-order of the spawn tree (R41, R106). A root task leaves the roots after it their shares. -/
def State.newOrdinal (s : State) (k : Task) : W64 :=
  let peers := s.tasks.filter fun x => x.launch == k.launch
  let low := ((peers.filter fun x => posLt x.position k.position).map fun x => x.ordinal.toNat + 1).foldl Nat.max 0
  let high := ((peers.filter fun x => posLt k.position x.position).map fun x => x.ordinal.toNat).foldl Nat.min (2 ^ 64)
  let later := if k.parent.isNone then ((s.launch? k.launch).map Launch.rootTeams).getD 0 - 1 - k.rootIndex else 0
  BitVec.ofNat 64 (ordinalWithin low ((high - low) / (later + 1)) (Config.ordinalChoice k.launch k.uid))

/-- A task joins its launch, with its ordinal. -/
def State.addTask (s : State) (k : Task) : State :=
  ({ s with tasks := s.tasks ++ [{ k with ordinal := s.newOrdinal k }] } : State).bump

/-- A node as its task is created (Tables 5.4 and 5.6). -/
def Node.fresh (k : Task) : Node :=
  { task := k.uid, position := k.position, key := k.key, positional := k.positional, parent := k.parent, state := .running,
    rerun := false, descDigest := digestDesc k.desc, descAddr := k.descAddr, taskDigest := 0#64, reads := [], newReads := [],
    children := [], oldEdges := none, unmatched := [], lastMatched := none, lastChild := none, writes := [], fulfilled := [],
    failures := 0, remote := none }

/-- A parent's list gains a child. -/
def Trace.addChild (t : Trace) (parent child : Nat) : Trace :=
  t.modNode parent fun n => { n with children := n.children ++ [child], lastChild := some child }

def Trace.addNode (t : Trace) (n : Node) : Trace :=
  let t := { t with nodes := t.nodes ++ [n] }
  match n.parent with
  | some p => t.addChild p n.task
  | none => t

/-- The last component of a node's place. -/
def Node.spot (n : Node) : List Nat := n.position.getLastD [0, 0]

/-- The place of a new child: above its elder sibling in this run, below the old children still to be matched
(R106). -/
def Trace.newPlace (t : Trace) (n : Node) : List (List Nat) :=
  let lo := ((n.lastChild.bind t.node?).map Node.spot).getD [0, 0]
  let above := (n.unmatched.filterMap t.node?).map Node.spot |>.filter fun x => dyLt lo x
  n.position ++ [dyBetween lo (leastBy dyLt above)]

/-! ## Re-execution (R120) -/

/-- The children of every run of a node that still stand, by ordinal. -/
def Trace.oldChildren (t : Trace) (n : Node) : List Nat := sortBy t.before (n.children ++ n.unmatched)

/-- A node begins to run again; its old lists stand until the run completes. -/
def Node.restart (n : Node) (kids : List Nat) : Node :=
  { n with state := .reexec, rerun := true, newReads := [], children := [], oldEdges := some n.edges, unmatched := kids,
           lastMatched := none, lastChild := none, writes := [], fulfilled := [] }

/-- A task that runs again waits for admission. -/
def Task.restart (k : Task) (weight : Nat) (pooled : Bool) (now : Nat) : Task :=
  { k with weight, pooled, state := .waiting, reexec := true, spawnIndex := 0, programKeys := [], written := Memory.empty,
           writtenAt := [], arrival := now }

/-- StartReexec of R120. -/
def State.startReexec (s : State) (ctx task weight : Nat) (pooled : Bool) : State :=
  let s := s.modTrace ctx fun t =>
    let t := { t with readers := t.readers.filter fun r => r.task != task, propReexec := t.propReexec + 1 }
    t.modNode task fun n => n.restart (t.oldChildren n)
  ((s.modTask task fun k => k.restart weight pooled s.nextUid).bump).holdForRemake task

/-- The old child of a node that a spawn names: by key, not yet matched. A SPAWN matches no child of a SPAWNR of equal
key, and a SPAWNR none of a SPAWN: R120 and R247 do not say (DESIGN CHOICE, log 38). -/
def Trace.matchChild (t : Trace) (n : Node) (key : BitVec 128) (positional remote : Bool) : Option Node :=
  (n.unmatched.filterMap t.node?).find? fun c => c.key == key && c.positional == positional && c.remote.isSome == remote

/-- Whether a match goes back behind the last one. -/
def Trace.outOfOrder (t : Trace) (n c : Node) : Bool :=
  match n.lastMatched with
  | some m => t.before c.task m
  | none => false

/-- Mark a child as matched (R120). -/
def Trace.matched (t : Trace) (parent child : Nat) (addr : W64) : Trace :=
  let t := t.modNode parent fun n =>
    { n with unmatched := n.unmatched.filter fun c => c != child, lastMatched := some child,
             children := n.children ++ [child], lastChild := some child }
  t.modNode child fun c => { c with descAddr := addr }

/-! ## Discarding (R121) -/

/-- A node and all below it, by descending ordinal. -/
def Trace.subtree (t : Trace) (task : Nat) : List Nat :=
  let ns := t.nodes.filter fun n => n.task == task || t.descends n.task task
  (sortBy (fun a b => posLt b.position a.position) ns).map Node.task

/-- The granules whose writer a task is. -/
def Trace.writtenBy (t : Trace) (task : Nat) : List Nat := (t.writers.filter fun w => w.2 == task).map Prod.fst

/-- Discard's work on one node whose task does not run: unwrite, unfulfil, unregister, free. -/
def State.freeNode (s : State) (ctx task : Nat) : State :=
  match s.trace? ctx with
  | none => s
  | some t =>
    let s := (t.writtenBy task).foldl (fun s g => s.unwrite ctx g) s
    let s := ((s.claims.filter fun e => e.writer == some task).map Claim.name).foldl State.unfulfil s
    let s := s.modTrace ctx fun t =>
      { t with nodes := t.nodes.filter fun n => n.task != task, readers := t.readers.filter fun r => r.task != task
               stopping := t.stopping.filter fun x => x != task, started := t.started.filter fun x => x != task
               propDiscarded := t.propDiscarded + 1 }
    { s with tasks := s.tasks.filter fun k => k.uid != task }

/-- The kill that stops a discarded task: no record, no recovery (R121). -/
def silentKill : Kill :=
  { cause := 0, firstCause := 0, info := 0#64, addr := 0#64, pc := 0#64, lanes := 0#32, kind := 0, slot := 0, silent := true }

/-- Discard of one node; a task that runs is stopped first. -/
def State.discardNode (s : State) (ctx task : Nat) : State :=
  match s.teams.find? fun t => t.task == task with
  | some t =>
    (s.modTrace ctx fun x => { x with stopping := x.stopping ++ [task] }).killTeam t.uid silentKill
  | none =>
    match (s.task? task).map Task.state with
    | some .waiting => (s.returnWeight task).freeNode ctx task
    | _ => s.freeNode ctx task

/-- Discard(C). -/
def State.discard (s : State) (ctx task : Nat) : State :=
  match s.trace? ctx with
  | none => s
  | some t => (t.subtree task).foldl (fun s d => s.discardNode ctx d) s

/-! ## The end of a run (R116, R121) -/

/-- A completed node's state and lists. -/
def Node.complete (n : Node) (digest : W64) : Node :=
  { n with
    state := if n.state == .remarked then .stale else .live
    reads := if n.isRerun then n.newReads else n.reads
    newReads := [], oldEdges := none, unmatched := [], rerun := false, taskDigest := digest }

/-- CompleteReexec of R121. -/
def State.completeReexec (s : State) (ctx task : Nat) (n : Node) : State :=
  let s := n.unmatched.foldl (fun s c => s.discard ctx c) s
  let gs := match s.trace? ctx with
    | some t => (t.writtenBy task).filter fun g => !n.writes.contains g
    | none => []
  let s := gs.foldl (fun s g => s.unwrite ctx g) s
  ((s.claims.filter fun e => e.maker == some task && e.oldHandle.isSome).map Claim.name).foldl State.unfulfil s

/-- A traced task exits. -/
def State.exitNode (s : State) (ctx task : Nat) (digest : W64) : State :=
  match (s.actingTrace? ctx).bind fun t => t.node? task with
  | none => s
  | some n =>
    let s := if n.isRerun then s.completeReexec ctx task n else s
    s.modTrace ctx fun t => t.modNode task fun n => n.complete digest

/-- A traced task has failed: its node waits for the reckoner (R305). -/
def Node.fail (n : Node) : Node := { n with state := .stale, rerun := false, failures := n.failures + 1 }

/-! ## Launch digests (R130, R131) -/

/-- The tasks of a launch in ascending ordinal. A task of SPAWNR belongs to its destination's launch. -/
def State.tasksInOrder (s : State) (launch : Nat) : List Task :=
  sortBy (fun a b => posLt a.position b.position) (s.tasks.filter fun k => k.launch == launch && k.handle.isNone)

/-- LaunchDigest of R130: each task's digest is that of its latest run. -/
def State.launchDigest (s : State) (l : Launch) : W64 :=
  if l.traced || l.det then (s.tasksInOrder l.uid).foldl (fun x k => digestFold x k.digest) 0#64 else l.digestSum

/-! ## Propagations (R119, R123, R252) -/

/-- Codes of Table 5.1. -/
def TraceState.code : TraceState → Nat
  | .recording => 0
  | .settling => 1
  | .ready => 2
  | .propagating => 3
  | .released => 4
  | .failed => 5

/-- Whether a node has yet to settle. -/
def Node.busy (n : Node) : Bool := n.state == .stale || n.state == .reexec || n.state == .remarked

/-- stale_count of Table 5.3. -/
def Trace.staleCount (t : Trace) : Nat := (t.nodes.filter fun n => n.state == .stale || n.state == .remarked).length

/-- Whether a settling or a propagation may end: no node is STALE, REEXEC or REMARKED, every task that it started or
stops has ended, and its weight is balanced. -/
def Trace.quiet (t : Trace) : Bool :=
  t.nodes.all (fun n => !n.busy) && t.started.isEmpty && t.stopping.isEmpty && t.balanced

/-- The completion record of Table 11.7. -/
def propBytes (ticket status reexec spliced discarded : Nat) (digest : W64) : List Byte :=
  [ticket, status, reexec, spliced, discarded, digest.toNat, 0, 0].flatMap (bytesOfNat 8)

/-- A unit writes a record of its own: a sector of device memory that is poisoned has met an uncorrectable error, and
such a write does not count toward its cover (R252, R312, R327). -/
def State.recordWrite (s : State) (ctx : Nat) (va : W64) (bs : List Byte) : State × Option (Nat × W64) :=
  match s.unitReach ctx va .store with
  | (s, .inr c) => (s, some (c, va))
  | (s, .inl pa) =>
    if !isRemote pa && s.poisonedAt pa bs.length then (s, some (Cause.poison, BitVec.ofNat 64 (pa / 64 * 64)))
    else
      let q := s.unitWrite ctx va bs
      (q.1, q.2.map fun c => (c, va))

/-- A completion record is written; one that cannot be leaves a machine-check record. -/
def State.completionWrite (s : State) (ctx : Nat) (va : W64) (bs : List Byte) : State :=
  match s.recordWrite ctx va bs with
  | (s, none) => s
  | (s, some (c, _)) => s.writeRecord { McRecord.blank 2 0 c with addr := va, ctx }

/-- Write a completion record, where one is requested. -/
def State.writeCompletion (s : State) (ctx : Nat) (at' : Option W64) (bs : List Byte) : State :=
  match at' with
  | none => s
  | some va => s.orLater { act := .completion, ctx, va, bytes := bs } fun s => s.completionWrite ctx va bs

/-- A PROP of code 1 or 2: no propagation. -/
def noPropBytes (code : Nat) : List Byte :=
  propBytes (2 ^ 64 - 1) (code + 256 * (if code == 2 then 5 else 0xFF)) 0 0 0 0#64

/-- The status word of Table 11.6. -/
def propStatus (code : Nat) (t : Nat) : W64 := BitVec.ofNat 64 (code + 256 * t)

/-- A thread that waits at a PROP receives its result and goes on; PROP, but not PROP.async, acquires. -/
def State.releaseProp (s : State) (r : PropRequest) (v : W64) : State :=
  let s := s.modThread r.team r.gang r.lane fun t =>
    { t.write r.dest v with blocked := if t.blocked == .propagate r.uid then .none else t.blocked }
  match s.team? r.team with
  | some t => if r.async then s else s.invalidateL1 t.core
  | none => s

def State.dropProp (s : State) (uid : Nat) : State := { s with props := s.props.filter fun p => p.uid != uid }

/-- A PROP that meets no propagation, with code 1 or 2. -/
def State.refuseProp (s : State) (r : PropRequest) (code : Nat) : State :=
  let s := (s.dropProp r.uid).writeCompletion r.ctx r.record (noPropBytes code)
  s.releaseProp r (if r.async then 0#64 else propStatus code (if code == 2 then 5 else 0xFF))

/-- A PROP starts a propagation of a READY trace, or joins the running one. -/
def State.joinProp (s : State) (r : PropRequest) : State :=
  match s.trace? r.ctx with
  | none => s.refuseProp r 1
  | some t =>
    let s := if t.state == .ready then
        s.modTrace r.ctx fun t =>
          { t with state := .propagating, versions := [], propNumber := t.propNumber + 1, propReexec := 0, propSpliced := 0,
                   propDiscarded := 0, poolReturned := 0, poolDebt := 0, poolHeld := 2 ^ 63 }
      else s
    let n := ((s.trace? r.ctx).map Trace.propNumber).getD 0
    let s := s.dropProp r.uid
    let s := { s with props := s.props ++ [{ r with waitsForReady := false, number := n }] }
    if r.async then s.releaseProp r (BitVec.ofNat 64 n) else s

/-- The propagation that a PROP joined has ended: its record, and where its thread waits its status word. -/
def State.finishProp (s : State) (r : PropRequest) (record : List Byte) (status : W64) : State :=
  let s := (s.dropProp r.uid).writeCompletion r.ctx r.record record
  if r.async then s else s.releaseProp r status

/-- The trace of a propagation that a PROP joined has failed (R331). The record then has the ticket and the counts of a
PROP that meets no propagation, though this one has taken a number: no rule gives them (DESIGN CHOICE, log 38). -/
def State.failProp (s : State) (r : PropRequest) : State := s.finishProp r (noPropBytes 2) (propStatus 2 5)

/-- The propagation that a PROP joined has ended. -/
def State.answerProp (s : State) (t : Trace) (digest : W64) (r : PropRequest) : State :=
  s.finishProp r (propBytes r.number (256 * 2) t.propReexec t.propSpliced t.propDiscarded digest) (propStatus 0 2)

/-- Write bytes of a launch's record; a record that cannot be written is left, and so is the template of a queue: the
record of a launch that a task packet starts is a copy of it (DESIGN CHOICE, log 41). -/
def State.writeRecordField (s : State) (l : Launch) (off : Nat) (bs : List Byte) : State :=
  if l.packet.isSome then s
  else
    let va := l.record + BitVec.ofNat 64 off
    s.orLater { act := .field, ctx := l.ctx, va, bytes := bs } fun s => (s.unitWrite l.ctx va bs).1

/-- The PROPs of a context that joined a propagation of its trace, or that wait for one. -/
def State.propsOf (s : State) (ctx : Nat) (waiting : Bool) : List PropRequest :=
  s.props.filter fun p => p.ctx == ctx && p.waitsForReady == waiting && p.awaits.isNone

/-- A FAILED trace is released: the PROPs that joined its propagation wait only for the tasks that it had started. -/
def State.orphanProps (s : State) (t : Trace) : State :=
  { s with props := s.props.map fun p =>
      if p.ctx == t.ctx && !p.waitsForReady && p.awaits.isNone then { p with awaits := some (t.started ++ t.stopping) } else p }

/-- Whether a task waits for admission or has a team. -/
def State.underWay (s : State) (task : Nat) : Bool :=
  (s.tasks.any fun k => k.uid == task && k.state == .waiting) || s.teams.any fun t => t.task == task && t.state != .replay

/-- The PROPs of released traces end once those tasks have. -/
def State.settleProps (s : State) : State :=
  (s.props.filter fun p => p.awaits.any fun ks => !ks.any s.underWay).foldl State.failProp s

/-- PROPs that waited for the trace to be READY, FAILED or released go on. -/
def State.wakeProps (s : State) (ctx : Nat) : State :=
  (s.propsOf ctx true).foldl (fun s r =>
    match s.trace? ctx with
    | some t =>
      if t.launch != r.launch || t.state == .released then s.refuseProp r 1
      else if t.state == .failed then s.refuseProp r 2
      else if t.state == .ready || t.state == .propagating then s.joinProp r
      else s
    | none => s.refuseProp r 1) s

/-- The digest of the launch that owns a trace. -/
def State.traceDigest (s : State) (t : Trace) : W64 :=
  match s.launch? t.launch with
  | some l => s.launchDigest l
  | none => 0#64

/-- A propagation ends (Table 5.1, R131). -/
def State.endPropagation (s : State) (ctx : Nat) : State :=
  match s.trace? ctx with
  | none => s
  | some t =>
    let s := s.modTrace ctx fun t => { t with state := .ready, propDone := t.propDone + 1 }
    let d := s.traceDigest t
    let s := match s.launch? t.launch with
      | some l => s.writeRecordField l 240 (bytesOfNat 8 d.toNat)
      | none => s
    (s.propsOf ctx false).foldl (fun s r => s.answerProp t d r) s

/-- After anything that may end a wait within a trace: a propagation that is quiet ends, the PROPs of a failed trace
end once the tasks that the reckoner started have, and waiting PROPs and threads go on. -/
def State.settleTrace (s : State) (ctx : Nat) : State :=
  let s := s.wakeProps ctx
  let s := match s.trace? ctx with
    | none => s
    | some t =>
      if t.state == TraceState.propagating && t.quiet then s.endPropagation ctx
      else if t.state == TraceState.failed && t.started.isEmpty && t.stopping.isEmpty then
        (s.propsOf ctx false).foldl State.failProp s
      else s
  s.wakeWriters

end Sys2Proof.Machine
end

