-- ==== Sys2Proof/Machine/Links.lean ====
section
/-! DEFINITION. Packets (R40, R247, R271, R345, R346): the fields of a task packet, acknowledgements and their payload
(Table 21.1), and the settling of tickets. -/

namespace Sys2Proof

/-! ## Task packets -/

/-- A number held in bytes of a payload. -/
def Packet.num (p : Packet) (off n : Nat) : Nat := Machine.natOfBytes ((p.payload.drop off).take n)

def Packet.desc (p : Packet) : BitVec 512 := BitVec.ofNat 512 (p.num 0 64)
def Packet.key (p : Packet) : BitVec 128 := BitVec.ofNat 128 (p.num 64 16)
def Packet.weight (p : Packet) : Nat := p.num 80 8
def Packet.ticket (p : Packet) : Nat := p.num 88 8
def Packet.launchId (p : Packet) : W64 := BitVec.ofNat 64 (p.num 96 8)

/-! ## Acknowledgements (Table 21.1) -/

/-- The payload's first 16 bytes, as a number: reason, kind of the packet answered, stage, ticket and weight. -/
def ackPayload (reason origKind stage ticket weight : Nat) : Nat :=
  reason % 2 ^ 8 + origKind % 2 ^ 8 * 2 ^ 8 + stage % 2 * 2 ^ 16 + ticket % 2 ^ 40 * 2 ^ 24 + weight % 2 ^ 64 * 2 ^ 64

/-- The answer of a device to a packet: an acknowledgement of a stage (kind 5), or with a reason a refusal (kind 6). -/
def Packet.answerBy (p : Packet) (own kind reason stage : Nat) : Packet :=
  let task := p.kind == 3
  { dst := p.src, src := own, vc := 1, flits := 1, kind, tag := p.tag,
    addr := if kind == 6 && task then p.launchId else 0#64,
    payload := Machine.bytesOfNat 16 (ackPayload reason p.kind stage (if task then p.ticket else 0) (if task then p.weight else 0))
      ++ List.replicate 48 0#8 }

/-- The answer of the packet's own destination. -/
def Packet.answer (p : Packet) (kind reason stage : Nat) : Packet := p.answerBy p.dst kind reason stage

/-! ## What an acknowledgement says -/

def Packet.ackReason (p : Packet) : Nat := p.num 0 1
def Packet.ackOrigKind (p : Packet) : Nat := p.num 1 1
def Packet.ackStage (p : Packet) : Nat := p.num 2 1 % 2
def Packet.ackTicket (p : Packet) : Nat := p.num 3 5
def Packet.ackWeight (p : Packet) : Nat := p.num 8 8

end Sys2Proof

namespace Sys2Proof.Machine

/-! ## Sending -/

/-- A packet waits at port 12 to leave. -/
def State.send (s : State) (p : Packet) : State := { s with outPackets := s.outPackets ++ [p] }

/-- Acknowledge a task packet: stage 0 when its queue accepts it, stage 1 when its launch has ended. -/
def State.acknowledge (s : State) (p : Packet) (stage : Nat) : State := s.send (p.answer 5 0 stage)

/-! ## Tickets (R346) -/

/-- The launch and the ticket that an acknowledgement of a task packet names, while the ticket is unsettled. A refusal may
come from an island on the way (R345). -/
def State.ticketOf (s : State) (p : Packet) : Option (Launch × Ticket) :=
  (s.launches.filter fun l => l.state == .running).findSome? fun l =>
    (l.unsettled.find? fun t =>
      t.packet.tag == p.tag && (p.kind == 6 || t.packet.dst == p.src) && t.number % 2 ^ 40 == p.ackTicket).map fun t => (l, t)

/-- A ticket is settled: a weight goes back. -/
def State.settleTicket (s : State) (l : Launch) (t : Ticket) (weight : Nat) : State :=
  (s.modLaunch l.uid fun x => { x with unsettled := x.unsettled.filter fun y => y.number != t.number }).creditWeight l.uid
    weight t.pooled

/-- The remote node of a ticket becomes LIVE once the destination has acknowledged it for good (R247). -/
def State.remoteLive (s : State) (l : Launch) (t : Ticket) : State :=
  { s with traces := s.traces.map fun x =>
      if x.launch == l.uid then
        { x with nodes := x.nodes.map fun n =>
            if (n.remote.map Prod.fst) == some (BitVec.ofNat 64 t.number) && n.state == .running then
              { n with state := .live } else n }
      else x }

/-- The record of a refused SPAWNR packet (R346). -/
def State.refusalRecord (s : State) (l : Launch) (t : Ticket) (reason : Nat) : State :=
  s.writeRecord { McRecord.blank 5 0 Cause.queue with
    info := BitVec.ofNat 64 (t.number * 2 ^ 8 + reason), addr := t.packet.addr, ordinal := t.ordinal,
    launchId := l.record, ctx := l.ctx }

end Sys2Proof.Machine
end

