-- ==== Sys2Proof/Machine/Dispatching.lean ====
section
/-! DEFINITION. LAUNCH_DISPATCH: the choice of a queue (R38), the checks of Table 2.11 (R57), the instantiation of the
root tasks (R38, R39), and the start of a trace (R104). -/

namespace Sys2Proof.Machine

/-! ## The record (Table 2.1) -/

/-- The bits lo to lo + n − 1 of a record. -/
def bitSpan (lo n : Nat) : Nat := (2 ^ n - 1) <<< lo

/-- The MBZ bits of Tables 2.2 to 2.5 and of the core mask, in the record. -/
def recordMbz : Nat :=
  bitSpan 106 22 + bitSpan 140 116 + bitSpan 1029 3 + bitSpan 1035 1 + bitSpan 1052 4 + bitSpan 1068 20
    + bitSpan 1176 40 + bitSpan 1696 32

/-- The bits that the device owns. -/
def recordOwned : Nat := bitSpan 1728 320

/-- The lowest byte of a record with a nonzero bit among some bits. -/
def lowestByte (r mask : Nat) : Option Nat := (List.range 256).find? fun k => field (r &&& mask) (8 * k) 8 != 0

/-- A record with another root descriptor (R40). -/
def withRoot (r : Nat) (d : BitVec 512) : Nat := r / 2 ^ 512 * 2 ^ 512 + d.toNat

/-- Whether a format slot is one that R73 rejects. -/
def slotRejected (v : Nat) : Bool :=
  let f := field v 0 4
  let m := field v 4 2
  decide (f ≥ 11) || m == 3 || ((m == 1 || m == 2) && !(f == 2 || f == 3 || f == 4 || f == 9 || f == 10))

/-- A launch as its record describes it. -/
def launchOfRecord (uid : Nat) (address : W64) (ctx queue r : Nat) (packet : Option Packet) (replays : Nat) : Launch :=
  { uid, record := address, ctx, queue, state := .running, control := BitVec.ofNat 64 (field r 1024 64)
    seed := BitVec.ofNat 64 (field r 1088 64), partition := BitVec.ofNat 64 (field r 1152 64)
    coreMask := BitVec.ofNat 320 (field r 1408 320)
    slots := (List.range 8).map fun k => BitVec.ofNat 64 (field r (512 + 64 * k) 64)
    expectedDigest := BitVec.ofNat 64 (field r 1344 64), traceBase := BitVec.ofNat 64 (field r 1216 64)
    traceSize := BitVec.ofNat 64 (field r 1280 64), root := BitVec.ofNat 512 (field r 0 512)
    returned := 0, debt := 0, completed := 0, failCause := none, replayWanted := false, replays, recordWritten := false
    tailCount := 0, tails := [], sendCount := 0, unsettled := [], gbarEpisode := 0, digestSum := 0#64, packet }

/-- prop_window_m1 + 1. -/
def Launch.propWindow (l : Launch) : Nat := field l.control.toNat 32 12 + 1

/-! ## COOP: whether all root teams can be resident at once (R56) -/

/-- How many times a demand fits into a limit. -/
def fitsTimes (limit need : Nat) : Nat := if need = 0 then 65536 else limit / need

/-- How many root teams a core that runs nothing else can hold. -/
def State.coreHolds (s : State) (l : Launch) (c : Context) (core : Nat) : Nat :=
  let a := Desc.ask l.root
  if l.paired && !(core % 2 == 0 && (s.allowedCores l).contains (core + 1)) then 0
  else
    [fitsTimes (Nat.min 64 c.gangQuota) a.gangs, fitsTimes (Nat.min 96 c.poolQuota) a.pool,
      fitsTimes l.regCap (regUnits a.gangs a.regs8), fitsTimes l.scratchCap a.scratch,
      fitsTimes l.accCap (accUnits a.tiles), fitsTimes 1024 a.barriers, fitsTimes 16 a.contexts,
      fitsTimes (s.core core).budget (a.gangs * l.energy)].foldl Nat.min 65536

/-- Whether all root teams fit together. -/
def State.coopFits (s : State) (l : Launch) (c : Context) : Bool :=
  let cores := s.allowedCores l
  let room := decide (l.rootTeams * Desc.privBytes l.root ≤ c.privSize)
  if l.det then
    let wanted := (List.range l.rootTeams).filterMap fun i => s.detCore l (BitVec.ofNat 64 i)
    room && cores.all fun x => decide (wanted.count x ≤ s.coreHolds l c x)
  else room && decide (l.rootTeams ≤ (cores.map fun x => s.coreHolds l c x).sum)

/-! ## The checks of Table 2.11 -/

/-- Whether a context's arenas have been configured. -/
def State.arenas (s : State) (ctx : Nat) : Bool :=
  match s.context? ctx with
  | some c => c.privSize != 0 && c.saveSize != 0
  | none => false

/-- The lowest byte of the root descriptor that fails item 2 of R246. -/
def State.rootFault (s : State) (l : Launch) : Option Nat :=
  leastBy (fun a b => decide (a < b)) (Desc.faults l.root ++ if Desc.exceeds l.root s l then [8] else [])

/-- The first check that a record fails, with its cause and info. -/
def State.dispatchFault (s : State) (l : Launch) (r : Nat) : Option (Nat × Nat) :=
  let owned := lowestByte r recordOwned
  let caps := l.regCap > 96 || l.scratchCap > 96 || l.accCap > 96 || l.regCap + l.scratchCap + l.accCap > 96
  let slot := (List.range 8).find? fun k => slotRejected (l.slot k).toNat
  let trace := if !l.traced then none
    else if l.traceBase.toNat % 65536 != 0 then some 152
    else if l.traceSize.toNat % 65536 != 0 || decide (l.traceSize.toNat < 131072) then some 160
    else none
  let pair := l.paired && (s.allowedCores l).all fun c => c % 2 == 1 || !(s.allowedCores l).contains (c + 1)
  let coop := l.coop && ((s.context? l.ctx).map fun c => !s.coopFits l c).getD true
  [owned.map fun k => (Cause.illopnd, k), (lowestByte r recordMbz).map fun k => (Cause.illopnd, k),
    (if caps then some (Cause.illopnd, 144) else none), slot.map fun k => (Cause.illopnd, 64 + 8 * k),
    (s.rootFault l).map fun k => (Cause.illopnd, k), trace.map fun k => (Cause.illopnd, k),
    (if pair then some (Cause.illopnd, 176) else none),
    (if s.arenas l.ctx then none else some (Cause.illopnd, 256)),
    (if coop then some (Cause.barrier, 128) else none)].findSome? id

/-! ## The choice of a queue (R38, R104) -/

/-- The record that the head of a queue names. -/
def State.headRecord (s : State) (q : Queue) : Option W64 :=
  q.items.head?.bind fun x =>
    match x with
    | .record a => some a
    | .replay u => (s.launch? u).map Launch.record
    | .packet _ => some q.template

/-- Whether the trace of a context keeps a TRACE launch at the head of its queue. -/
def State.traceBusy (s : State) (ctx : Nat) : Bool :=
  match s.trace? ctx with
  | some t => t.state == .recording || t.state == .settling || t.state == .propagating
  | none => false

/-- What a look at a record's control word shows before the record is read: whether TRACE is set, or that its bytes
have yet to come from the system window, or its page is being zeroed. A page whose first walk is to zero it shows zeros
(R263). -/
inductive Peek where
  | traced (b : Bool)
  | coming
  | unknown
  deriving DecidableEq, Repr

def State.peek (s : State) (ctx : Nat) (va : W64) : Peek :=
  match s.walkTables ctx va with
  | .fault _ _ => .unknown
  | .leaf _ _ e =>
    let pa := leafPhys e va
    if pteZoa e && decide (pteOwn e < 2) then (if pteOwn e == 0 then .traced false else .coming)
    else if isRemote pa then
      match s.unitBytes? pa 256 with
      | some bs => .traced ((natOfBytes bs).testBit 1024)
      | none =>
        if s.unitAsks pa then .coming else .unknown
    else .traced ((s.homeRead (pa + 128) 1).testBit 0)

/-- Whether a queue's head can be dispatched. -/
def State.headReady (s : State) (q : Queue) : Bool :=
  q.enabled && q.running.isNone &&
    match s.headRecord q with
    | none => false
    | some va =>
      match s.peek q.ctx va with
      | .traced b => !(b && s.traceBusy q.ctx)
      | .coming => false
      | .unknown => true

/-- The queue that dispatches next: of the highest priority level with a ready head, round robin. -/
def State.nextQueue (s : State) : Option Queue :=
  let ready := s.queues.filter s.headReady
  [0, 1, 2, 3].findSome? fun p =>
    let turn := fun (q : Queue) => (q.id + 63 - s.rrLast.getD p 0) % 64
    leastBy (fun a b => decide (turn a < turn b)) (ready.filter fun q => q.priority == p)

/-! ## Rejection (R57) -/

/-- The fields of a record that the device owns, from byte 216 on. -/
def ownedBytes (returned debt : Nat) (digest : W64) (state cause count : Nat) : List Byte :=
  bytesOfNat 16 returned ++ bytesOfNat 8 debt ++ bytesOfNat 8 digest.toNat
    ++ bytesOfNat 8 (state * 2 ^ 60 + cause % 256 * 2 ^ 52 + count % 2 ^ 52)

/-- The head of a queue has its turn and leaves it (R38). -/
def State.popQueue (s : State) (q : Queue) : State :=
  { s.modQueue q.id fun x => { x with items := x.items.drop 1 } with rrLast := s.rrLast.set q.priority q.id }

/-- A launch of a queue is over: MSI-X vector q (R265), and the sender of its packet hears of it (R40). -/
def State.announce (s : State) (queue : Nat) (packet : Option Packet) : State :=
  match packet with
  | some p => (s.signal queue).acknowledge p 1
  | none => s.signal queue

/-- A launch is rejected. -/
def State.rejectLaunch (s : State) (q : Queue) (l : Launch) (cause info : Nat) (readable : Bool) : State :=
  let s := if readable then s.writeRecordField l 216 (ownedBytes 0 0 0#64 3 cause 0) else s
  let s := s.writeRecord { McRecord.blank 2 3 cause with
    info := BitVec.ofNat 64 info, addr := l.record, launchId := l.record, ctx := l.ctx }
  (s.popQueue q).announce q.id l.packet

/-! ## The start of a trace (R104) -/

/-- The derived pages that tables map for a context, with their sizes. -/
def State.derivedPages (s : State) (ctx : Nat) : List Nat → Nat → List (Nat × Nat)
  | [], _ => []
  | level :: rest, table =>
    if table + 8192 > deviceBytes then []
    else (List.range 1024).flatMap fun k =>
      let e : W64 := BitVec.ofNat 64 (s.homeRead (table + 8 * k) 8)
      if !pteValid e || s.poisonedAt (table + 8 * k) 8 || pteBad e level then []
      else if pteSize e == 0 then s.derivedPages ctx rest (pteAddr e)
      else if pteDerived e && (pteCtx e == ctx || pteCtx e == 16) && decide (pteAddr e < deviceBytes) then
        [(pteAddr e, leafBytes (pteSize e))]
      else []

/-- Zero every derived page mapped in a context. -/
def State.zeroDerived (s : State) (ctx : Nat) : State :=
  match s.context? ctx with
  | none => s
  | some c => (s.derivedPages ctx [0, 1, 2, 3] c.table).foldl (fun s p => s.zeroSpan p.1 p.2) s

/-- A trace is released: its pins, readers and writers go, and those who wait for it go on. -/
def State.releaseTrace (s : State) (ctx : Nat) : State :=
  let s := match s.trace? ctx with
    | some t => s.orphanProps t
    | none => s
  (s.modTrace ctx fun t =>
    { t with state := .released, nodes := [], readers := [], writers := [], started := [], stopping := [] }).settleTrace ctx

/-- The trace of a launch as it starts. -/
def Trace.start (l : Launch) : Trace :=
  { ctx := l.ctx, launch := l.uid, state := .recording, base := l.traceBase, size := l.traceSize.toNat, nodes := []
    readers := [], writers := [], propReexec := 0, propSpliced := 0, propDiscarded := 0, propNumber := 0, propDone := 0
    started := [], stopping := [], poolReturned := 0, poolDebt := 0, poolHeld := 2 ^ 63, window := l.propWindow
    versions := [] }

/-- Launches that are over and whose trace has gone, with their tasks, are forgotten. -/
def State.forgetLaunches (s : State) : State :=
  let ended := s.launches.filter fun l =>
    (l.state == .retired || l.state == .failed)
      && !s.traces.any fun t => t.launch == l.uid && t.state != .released
  let gone := ended.map Launch.uid
  { s with
    launches := s.launches.filter fun l => !gone.contains l.uid
    tasks := s.tasks.filter fun k => !gone.contains k.launch }

/-- The context's trace is that of a new TRACE launch. -/
def State.startTrace (s : State) (l : Launch) : State :=
  let s := (s.releaseTrace l.ctx).zeroDerived l.ctx
  { s with traces := (s.traces.filter fun t => t.ctx != l.ctx) ++ [Trace.start l] }

/-! ## Root tasks (R38, R39, R41) -/

/-- The weights that n root tasks receive, and the debt, from a weight dealt in team order. -/
def rootWeights : Nat → Nat → List Nat × Nat
  | 0, _ => ([], 0)
  | 1, w => ([w], 0)
  | n + 1, w =>
    let d := dealt w
    let r := rootWeights n d.2.1
    (d.1 :: r.1, r.2 + d.2.2)

/-- Root task i. -/
def rootTask (l : Launch) (uid i weight : Nat) : Task :=
  { uid, launch := l.uid, parent := none, rootIndex := i, position := [[i, 0]], ordinal := 0#64, posKey := BitVec.ofNat 64 i
    key := BitVec.ofNat 128 i, positional := true, desc := l.root, descAddr := l.record, weight, pooled := false
    spawnIndex := 0, programKeys := [], reexec := false, written := Memory.empty, writtenAt := [], startClock := 0
    arrival := uid, state := .waiting, originCore := 0, counted := false, avoid := [], audit := none, handle := none }

/-- A root task joins the launch, and its trace; a trace store without room fails the trace with no trap (R332). -/
def State.addRoot (s : State) (l : Launch) (i weight : Nat) : State :=
  let k := rootTask l s.nextUid i weight
  let s := s.addTask k
  if !l.traced then s
  else
    match s.actingTrace? l.ctx with
    | none => s
    | some t =>
      if t.room 64 0 then s.modTrace l.ctx fun t => t.addNode (Node.fresh k)
      else s.failTrace l.ctx Cause.tracefull 64#64 false

/-- A launch begins. -/
def State.beginLaunch (s : State) (q : Queue) (l : Launch) : State :=
  let s := s.bump
  let s := (s.popQueue q).modQueue q.id fun x => { x with running := some l.uid }
  let s := { s with launchedOnce := true, launches := s.launches ++ [l] }
  let s := s.writeRecordField l 248 (bytesOfNat 8 (1 * 2 ^ 60))
  let s := if l.traced then s.startTrace l else s
  let ws := rootWeights l.rootTeams (2 ^ 63)
  let s := s.modLaunch l.uid fun x => { x with debt := ws.2 }
  (ws.1.mapIdx fun i w => (i, w)).foldl (fun s x => s.addRoot l x.1 x.2) s

/-- A replay writes its record as it is dispatched again, with the first failure's cause (R305). -/
def State.replayRecord (s : State) (old : Launch) : State :=
  let s := s.writeRecord { McRecord.blank 2 2 (old.failCause.getD 0) with
    addr := old.record, launchId := old.record, ctx := old.ctx }
  { s with launches := s.launches.filter fun l => l.uid != old.uid, tasks := s.tasks.filter fun k => k.launch != old.uid }

/-- Dispatch a record that has been read. -/
def State.dispatchRead (s : State) (q : Queue) (address : W64) (r : Nat) (packet : Option Packet) (replays : Nat) : State :=
  let l := launchOfRecord s.nextUid address q.ctx q.id r packet replays
  match s.dispatchFault l r with
  | some (cause, info) => s.rejectLaunch q l cause info true
  | none => s.beginLaunch q l

/-- Dispatch the head of a queue; the record is read first. -/
def State.dispatchHead (s : State) (q : Queue) (address : W64) (packet : Option Packet) (old : Option Launch) : State :=
  match s.unitRead q.ctx address 256 with
  | (s, .pending) => s
  | (s, .failed c) =>
    (match old with
     | some l => s.replayRecord l
     | none => s).rejectLaunch q (launchOfRecord 0 address q.ctx q.id 0 packet 0) c 0 false
  | (s, .bytes bs) =>
    let r := match packet with
      | some p => withRoot (natOfBytes bs) p.desc
      | none => natOfBytes bs
    match old with
    | some l => (s.replayRecord l).dispatchRead q address r packet (l.replays + 1)
    | none => s.dispatchRead q address r packet 0

/-- LAUNCH_DISPATCH. -/
def execLaunchDispatch (queue : Nat) (st : State) : Host.Outcome State Fault Refusal :=
  match st.nextQueue with
  | none => .fault .notDue
  | some q =>
    if q.id != queue then .fault .notDue
    else
      match q.items.head? with
      | some (.record a) => .next ((st.dispatchHead q a none none).forgetLaunches)
      | some (.packet p) => .next ((st.dispatchHead q q.template (some p) none).forgetLaunches)
      | some (.replay u) =>
        match st.launch? u with
        | some l => .next ((st.dispatchHead q l.record l.packet (some l)).forgetLaunches)
        | none => .fault .notDue
      | none => .fault .notDue

end Sys2Proof.Machine
end

