-- ==== Sys2Proof/Machine/Integer.lean ====
section
/-! DEFINITION. The integer instructions, majors 0x12 to 0x2E (R167 to R180). -/

namespace Sys2Proof.Machine

/-! ## Shared shapes -/

/-- A destination and two sources. -/
def regs3 (d a b : BitVec 7) : List Field := [.dst d 1, .src a 1, .src b 1]

/-- A destination and a source. -/
def regs2 (d a : BitVec 7) : List Field := [.dst d 1, .src a 1]

/-- An integer word: it writes one register from values of its thread, and may set SATF. -/
def intWord (s : State) (legal : Bool) (fs : List Field) (d : BitVec 7) (f : Lane → W64 × Bool) :
    Host.Outcome State Fault Refusal :=
  threadWord s (fieldCheck s.curWord legal fs) fun l t => (setReg l d (f l).1 t).orSat (f l).2

/-- The same for a word that never saturates. -/
def plainWord (s : State) (legal : Bool) (fs : List Field) (d : BitVec 7) (f : Lane → W64) :
    Host.Outcome State Fault Refusal :=
  threadWord s (fieldCheck s.curWord legal fs) fun l t => setReg l d (f l) t

/-- A word that sets one predicate. -/
def predWord (s : State) (legal : Bool) (fs : List Field) (p : Nat) (f : Lane → Bool) :
    Host.Outcome State Fault Refusal :=
  threadWord s (fieldCheck s.curWord legal fs) fun l t => t.setPred p (f l)

/-- Apply a function to the elements of two registers. -/
def zipElems (e : Nat) (a b : W64) (f : Nat → Nat → Nat) : W64 :=
  pack e ((List.range (64 / e)).map fun j => f (elem a e j) (elem b e j))

/-- Apply a function to the elements of a register. -/
def mapElems (e : Nat) (a : W64) (f : Nat → Nat) : W64 := pack e ((elems a e).map f)

/-- The value of an element under an interpretation (R167). -/
def interpret (u : BitVec 1) (e x : Nat) : Int := if u = 1#1 then (x : Int) else signExtend x e

/-! ## Arithmetic (R167, R168) -/

/-- One element of ADD or SUB: the exact result, clamped where .sat is given (R167). -/
def addElem (u s : BitVec 1) (e : Nat) (r : Int) : Int × Bool :=
  if s = 1#1 then (if u = 1#1 then satU r e else satS r e) else (r, false)

/-- ADD and SUB on registers: the result and whether any element was clamped. -/
def addRegs (u s : BitVec 1) (e : Nat) (op : Int → Int → Int) (a b : W64) : W64 × Bool :=
  let rs := (List.range (64 / e)).map fun j =>
    addElem u s e (op (interpret u e (elem a e j)) (interpret u e (elem b e j)))
  (pack e (rs.map fun r => wrap r.1 e), rs.any Prod.snd)

/-- ADD (R167). -/
def execAdd (u s : BitVec 1) (e : BitVec 2) (d a b : BitVec 7) (st : State) : Host.Outcome State Fault Refusal :=
  intWord st true (regs3 d a b) d fun l => addRegs u s (width e) (· + ·) (l.read a) (l.read b)

/-- SUB (R167). -/
def execSub (u s : BitVec 1) (e : BitVec 2) (d a b : BitVec 7) (st : State) : Host.Outcome State Fault Refusal :=
  intWord st true (regs3 d a b) d fun l => addRegs u s (width e) (· - ·) (l.read a) (l.read b)

/-- ADDI (R168). -/
def execAddi (d a : BitVec 7) (i : BitVec 11) (st : State) : Host.Outcome State Fault Refusal :=
  plainWord st true (regs2 d a) d fun l => l.read a + i.signExtend 64

/-- MUL: the low or the high half of each exact product (R167). -/
def execMul (u h : BitVec 1) (e : BitVec 2) (d a b : BitVec 7) (st : State) : Host.Outcome State Fault Refusal :=
  plainWord st true (regs3 d a b) d fun l => zipElems (width e) (l.read a) (l.read b) fun x y =>
    let p := interpret u (width e) x * interpret u (width e) y
    wrap (if h = 1#1 then p / (2 ^ width e : Nat) else p) (width e)

/-- MAD: d + a × b, low half (R167). -/
def execMad (e : BitVec 2) (d a b : BitVec 7) (st : State) : Host.Outcome State Fault Refusal :=
  plainWord st true (regs3 d a b) d fun l =>
    pack (width e) ((List.range (64 / width e)).map fun j =>
      elem (l.read d) (width e) j + elem (l.read a) (width e) j * elem (l.read b) (width e) j)

/-- MIN (R167). -/
def execMin (u : BitVec 1) (e : BitVec 2) (d a b : BitVec 7) (st : State) : Host.Outcome State Fault Refusal :=
  plainWord st true (regs3 d a b) d fun l => zipElems (width e) (l.read a) (l.read b) fun x y =>
    if interpret u (width e) x < interpret u (width e) y then x else y

/-- MAX (R167). -/
def execMax (u : BitVec 1) (e : BitVec 2) (d a b : BitVec 7) (st : State) : Host.Outcome State Fault Refusal :=
  plainWord st true (regs3 d a b) d fun l => zipElems (width e) (l.read a) (l.read b) fun x y =>
    if interpret u (width e) x > interpret u (width e) y then x else y

/-- LEA: a + b × 1, 2, 4 or 8 (R168). -/
def execLea (s : BitVec 2) (d a b : BitVec 7) (st : State) : Host.Outcome State Fault Refusal :=
  plainWord st true (regs3 d a b) d fun l => l.read a + (l.read b <<< s.toNat)

/-! ## The unary family (R169, Table 7.8) -/

/-- A unary word. -/
def unaryWord (st : State) (d a : BitVec 7) (e : BitVec 2) (f : Nat → Nat → Nat) : Host.Outcome State Fault Refusal :=
  plainWord st true (regs2 d a) d fun l => mapElems (width e) (l.read a) (f (width e))

/-- ABS. -/
def execAbs (d a : BitVec 7) (e : BitVec 2) (st : State) : Host.Outcome State Fault Refusal :=
  unaryWord st d a e fun e x => wrap (signExtend x e).natAbs e

/-- NEG. -/
def execNeg (d a : BitVec 7) (e : BitVec 2) (st : State) : Host.Outcome State Fault Refusal :=
  unaryWord st d a e fun e x => wrap (-signExtend x e) e

/-- NOT. -/
def execNot (d a : BitVec 7) (e : BitVec 2) (st : State) : Host.Outcome State Fault Refusal :=
  unaryWord st d a e fun e x => 2 ^ e - 1 - x

/-- POPC. -/
def execPopc (d a : BitVec 7) (e : BitVec 2) (st : State) : Host.Outcome State Fault Refusal :=
  unaryWord st d a e fun e x => popCount x e

/-- CLZ. -/
def execClz (d a : BitVec 7) (e : BitVec 2) (st : State) : Host.Outcome State Fault Refusal :=
  unaryWord st d a e fun e x => leadingZeros x e

/-- CTZ. -/
def execCtz (d a : BitVec 7) (e : BitVec 2) (st : State) : Host.Outcome State Fault Refusal :=
  unaryWord st d a e fun e x => trailingZeros x e

/-- BREV. -/
def execBrev (d a : BitVec 7) (e : BitVec 2) (st : State) : Host.Outcome State Fault Refusal :=
  unaryWord st d a e fun e x => reverseBits x e

/-- BSWAP. -/
def execBswap (d a : BitVec 7) (e : BitVec 2) (st : State) : Host.Outcome State Fault Refusal :=
  unaryWord st d a e fun e x => reverseBytes x (e / 8)

/-! ## Logic (R170) -/

/-- AND. -/
def execAnd (d a b : BitVec 7) (st : State) : Host.Outcome State Fault Refusal :=
  plainWord st true (regs3 d a b) d fun l => l.read a &&& l.read b

/-- OR. -/
def execOr (d a b : BitVec 7) (st : State) : Host.Outcome State Fault Refusal :=
  plainWord st true (regs3 d a b) d fun l => l.read a ||| l.read b

/-- XOR. -/
def execXor (d a b : BitVec 7) (st : State) : Host.Outcome State Fault Refusal :=
  plainWord st true (regs3 d a b) d fun l => l.read a ^^^ l.read b

/-- ANDN. -/
def execAndn (d a b : BitVec 7) (st : State) : Host.Outcome State Fault Refusal :=
  plainWord st true (regs3 d a b) d fun l => l.read a &&& ~~~l.read b

/-- ORN. -/
def execOrn (d a b : BitVec 7) (st : State) : Host.Outcome State Fault Refusal :=
  plainWord st true (regs3 d a b) d fun l => l.read a ||| ~~~l.read b

/-- XNOR. -/
def execXnor (d a b : BitVec 7) (st : State) : Host.Outcome State Fault Refusal :=
  plainWord st true (regs3 d a b) d fun l => ~~~(l.read a ^^^ l.read b)

/-- ANDI. -/
def execAndi (d a : BitVec 7) (i : BitVec 11) (st : State) : Host.Outcome State Fault Refusal :=
  plainWord st true (regs2 d a) d fun l => l.read a &&& i.signExtend 64

/-- ORI. -/
def execOri (d a : BitVec 7) (i : BitVec 11) (st : State) : Host.Outcome State Fault Refusal :=
  plainWord st true (regs2 d a) d fun l => l.read a ||| i.signExtend 64

/-- XORI. -/
def execXori (d a : BitVec 7) (i : BitVec 11) (st : State) : Host.Outcome State Fault Refusal :=
  plainWord st true (regs2 d a) d fun l => l.read a ^^^ i.signExtend 64

/-! ## Shifts (R171) -/

/-- SHL of one element; an amount of the width or more gives 0. -/
def shlElem (e x n : Nat) : Nat := if n ≥ e then 0 else x <<< n

/-- SHR of one element; an amount of the width or more gives 0. -/
def shrElem (e x n : Nat) : Nat := if n ≥ e then 0 else x >>> n

/-- SAR of one element; an amount of the width or more acts as the width less 1. -/
def sarElem (e x n : Nat) : Nat := wrap (signExtend x e / (2 ^ (if n < e - 1 then n else e - 1) : Nat)) e

/-- ROL of one element; the amount is taken modulo the width. -/
def rolElem (e x n : Nat) : Nat := (x <<< (n % e)) + (x >>> (e - n % e))

/-- A register shift. -/
def shiftWord (st : State) (e : BitVec 2) (d a b : BitVec 7) (f : Nat → Nat → Nat → Nat) :
    Host.Outcome State Fault Refusal :=
  plainWord st true (regs3 d a b) d fun l => zipElems (width e) (l.read a) (l.read b) (f (width e))

/-- SHL. -/
def execShl (e : BitVec 2) (d a b : BitVec 7) (st : State) : Host.Outcome State Fault Refusal :=
  shiftWord st e d a b shlElem

/-- SHR. -/
def execShr (e : BitVec 2) (d a b : BitVec 7) (st : State) : Host.Outcome State Fault Refusal :=
  shiftWord st e d a b shrElem

/-- SAR. -/
def execSar (e : BitVec 2) (d a b : BitVec 7) (st : State) : Host.Outcome State Fault Refusal :=
  shiftWord st e d a b sarElem

/-- ROL. -/
def execRol (e : BitVec 2) (d a b : BitVec 7) (st : State) : Host.Outcome State Fault Refusal :=
  shiftWord st e d a b rolElem

/-- SHLI. -/
def execShli (d a : BitVec 7) (n : BitVec 6) (st : State) : Host.Outcome State Fault Refusal :=
  plainWord st true (regs2 d a) d fun l => l.read a <<< n.toNat

/-- SHRI. -/
def execShri (d a : BitVec 7) (n : BitVec 6) (st : State) : Host.Outcome State Fault Refusal :=
  plainWord st true (regs2 d a) d fun l => l.read a >>> n.toNat

/-- SARI. -/
def execSari (d a : BitVec 7) (n : BitVec 6) (st : State) : Host.Outcome State Fault Refusal :=
  plainWord st true (regs2 d a) d fun l => (l.read a).sshiftRight n.toNat

/-- ROLI. -/
def execRoli (d a : BitVec 7) (n : BitVec 6) (st : State) : Host.Outcome State Fault Refusal :=
  plainWord st true (regs2 d a) d fun l => (l.read a).rotateLeft n.toNat

/-! ## Bit fields (R172) -/

/-- The position that register b gives. -/
def bfPos (b : W64) : Nat := field b.toNat 0 6

/-- The length that register b gives, cut at bit 63. -/
def bfLen (b : W64) : Nat := min (field b.toNat 6 6) (64 - bfPos b)

/-- BFX of one register. -/
def bfxValue (s : BitVec 1) (a b : W64) : W64 :=
  let n := bfLen b
  if n = 0 then 0#64
  else
    let f := field a.toNat (bfPos b) n
    if s = 1#1 then toW64 (signExtend f n) else BitVec.ofNat 64 f

/-- BFI of one register. -/
def bfiValue (d a b : W64) : W64 := BitVec.ofNat 64 (setField d.toNat (bfPos b) (bfLen b) a.toNat)

/-- BFX. -/
def execBfx (s : BitVec 1) (d a b : BitVec 7) (st : State) : Host.Outcome State Fault Refusal :=
  plainWord st true (regs3 d a b) d fun l => bfxValue s (l.read a) (l.read b)

/-- BFI. -/
def execBfi (d a b : BitVec 7) (st : State) : Host.Outcome State Fault Refusal :=
  plainWord st true (regs3 d a b) d fun l => bfiValue (l.read d) (l.read a) (l.read b)

/-! ## Compares and selects (R173, R174) -/

/-- The conditions of Table 7.9, on n-bit values. -/
def condHolds (c n : Nat) (a b : Nat) : Bool :=
  match c with
  | 0 => a == b
  | 1 => a != b
  | 2 => signExtend a n < signExtend b n
  | 3 => signExtend a n ≤ signExtend b n
  | 4 => a < b
  | 5 => a ≤ b
  | 6 => a &&& b != 0
  | _ => a &&& b == 0

/-- CMP: with w set it compares the low 32 bits. -/
def execCmp (w : BitVec 1) (c : BitVec 3) (p a b : BitVec 7) (st : State) : Host.Outcome State Fault Refusal :=
  let n := if w = 1#1 then 32 else 64
  predWord st true [.idx p.toNat 8, .src a 1, .src b 1] p.toNat fun l =>
    condHolds c.toNat n (field (l.read a).toNat 0 n) (field (l.read b).toNat 0 n)

/-- CMPI: condition codes 8 to 15 are reserved. -/
def execCmpi (c : BitVec 4) (p : BitVec 3) (a : BitVec 7) (i : BitVec 11) (st : State) :
    Host.Outcome State Fault Refusal :=
  predWord st (decide (c.toNat < 8)) [.src a 1] p.toNat fun l =>
    condHolds c.toNat 64 (l.read a).toNat (i.signExtend 64).toNat

/-- SEL. -/
def execSel (n : BitVec 1) (p : BitVec 3) (d a b : BitVec 7) (st : State) : Host.Outcome State Fault Refusal :=
  plainWord st true (regs3 d a b) d fun l =>
    if l.thread.pred p.toNat != (n == 1#1) then l.read a else l.read b

/-! ## Moves and predicates (R175) -/

/-- MOV. -/
def execMov (d a : BitVec 7) (st : State) : Host.Outcome State Fault Refusal :=
  plainWord st true (regs2 d a) d fun l => l.read a

/-- PGET. -/
def execPget (d : BitVec 7) (st : State) : Host.Outcome State Fault Refusal :=
  plainWord st true [.dst d 1] d fun l => l.thread.p.setWidth 64

/-- PSET. -/
def execPset (a : BitVec 7) (st : State) : Host.Outcome State Fault Refusal :=
  threadWord st (fieldCheck st.curWord true [.src a 1]) fun l t => { t with p := (l.read a).setWidth 8 }

/-- The three predicates of a predicate operation. -/
def preds3 (d a b : BitVec 7) : List Field := [.idx d.toNat 8, .idx a.toNat 8, .idx b.toNat 8]

/-- PAND. -/
def execPand (d a b : BitVec 7) (st : State) : Host.Outcome State Fault Refusal :=
  predWord st true (preds3 d a b) d.toNat fun l => l.thread.pred a.toNat && l.thread.pred b.toNat

/-- POR. -/
def execPor (d a b : BitVec 7) (st : State) : Host.Outcome State Fault Refusal :=
  predWord st true (preds3 d a b) d.toNat fun l => l.thread.pred a.toNat || l.thread.pred b.toNat

/-- PXOR. -/
def execPxor (d a b : BitVec 7) (st : State) : Host.Outcome State Fault Refusal :=
  predWord st true (preds3 d a b) d.toNat fun l => l.thread.pred a.toNat != l.thread.pred b.toNat

/-- PNOT. -/
def execPnot (d a : BitVec 7) (st : State) : Host.Outcome State Fault Refusal :=
  predWord st true [.idx d.toNat 8, .idx a.toNat 8] d.toNat fun l => !l.thread.pred a.toNat

/-! ## Constants (R176) -/

/-- MVI. -/
def execMvi (d : BitVec 7) (i : BitVec 18) (st : State) : Host.Outcome State Fault Refusal :=
  plainWord st true [.dst d 1] d fun _ => i.signExtend 64

/-- MVH1: bits [35:18]. -/
def execMvh1 (d : BitVec 7) (i : BitVec 18) (st : State) : Host.Outcome State Fault Refusal :=
  plainWord st true [.dst d 1] d fun l => BitVec.ofNat 64 (setField (l.read d).toNat 18 18 i.toNat)

/-- MVH2: bits [53:36]. -/
def execMvh2 (d : BitVec 7) (i : BitVec 18) (st : State) : Host.Outcome State Fault Refusal :=
  plainWord st true [.dst d 1] d fun l => BitVec.ofNat 64 (setField (l.read d).toNat 36 18 i.toNat)

/-- MVH3: bits [63:54]. -/
def execMvh3 (d : BitVec 7) (i : BitVec 10) (st : State) : Host.Outcome State Fault Refusal :=
  plainWord st true [.dst d 1] d fun l => BitVec.ofNat 64 (setField (l.read d).toNat 54 10 i.toNat)

/-! ## Packed operations (R177 to R180) -/

/-- PDOT2: each 32-bit element plus the dot product of two 16-bit pairs, clamped once (R177). -/
def pdot2Value (u : BitVec 1) (d a b : W64) : W64 × Bool :=
  let rs := (List.range 2).map fun j =>
    let s := interpret u 32 (elem d 32 j)
      + interpret u 16 (elem a 16 (2 * j)) * interpret u 16 (elem b 16 (2 * j))
      + interpret u 16 (elem a 16 (2 * j + 1)) * interpret u 16 (elem b 16 (2 * j + 1))
    if u = 1#1 then satU s 32 else satS s 32
  (pack 32 (rs.map fun r => wrap r.1 32), rs.any Prod.snd)

/-- PDOT2. -/
def execPdot2 (u : BitVec 1) (d a b : BitVec 7) (st : State) : Host.Outcome State Fault Refusal :=
  intWord st true (regs3 d a b) d fun l => pdot2Value u (l.read d) (l.read a) (l.read b)

/-- One element of PSRR: a right shift that rounds halves up (R178). -/
def psrrElem (e n x : Nat) : Nat :=
  wrap (if n = 0 then signExtend x e else (signExtend x e + (2 ^ (n - 1) : Nat)) / (2 ^ n : Nat)) e

/-- PSRR. -/
def execPsrr (e : BitVec 2) (d a b : BitVec 7) (st : State) : Host.Outcome State Fault Refusal :=
  plainWord st true (regs3 d a b) d fun l =>
    mapElems (width e) (l.read a) (psrrElem (width e) (min (field (l.read b).toNat 0 6) (width e)))

/-- PNARROW: the elements of a, then those of b, at half width (R179). -/
def pnarrowValue (u : BitVec 1) (e : Nat) (a b : W64) : W64 × Bool :=
  let rs := (elems a e ++ elems b e).map fun x =>
    if u = 1#1 then satU (signExtend x e) (e / 2) else satS (signExtend x e) (e / 2)
  (pack (e / 2) (rs.map fun r => wrap r.1 (e / 2)), rs.any Prod.snd)

/-- PNARROW: a source esize of 0 is reserved. -/
def execPnarrow (u : BitVec 1) (e : BitVec 2) (d a b : BitVec 7) (st : State) : Host.Outcome State Fault Refusal :=
  intWord st (e != 0#2) (regs3 d a b) d fun l => pnarrowValue u (width e) (l.read a) (l.read b)

/-- PWIDEN: half of the elements at twice their width (R180). -/
def pwidenValue (x h : BitVec 1) (e : Nat) (a : W64) : W64 :=
  let base := if h = 1#1 then 32 / e else 0
  pack (2 * e) ((List.range (32 / e)).map fun j =>
    let v := elem a e (base + j)
    if x = 1#1 then wrap (signExtend v e) (2 * e) else v)

/-- PWIDEN: a source esize of 3 is reserved. -/
def execPwiden (x h : BitVec 1) (e : BitVec 2) (d a : BitVec 7) (st : State) : Host.Outcome State Fault Refusal :=
  plainWord st (e != 3#2) (regs2 d a) d fun l => pwidenValue x h (width e) (l.read a)

end Sys2Proof.Machine
end

