-- ==== Sys2Proof/Machine/Masks.lean ====
section
/-! DEFINITION. Lane masks, votes and regrouping at the issuing word: majors 0x0D to 0x0F (R30, R157 to R160). -/

namespace Sys2Proof.Machine

/-! ## Masks (R30) -/

/-- The value of a mask register. -/
def Gang.mask (g : Gang) (m : Nat) : W32 := g.masks.getD m 0#32

/-- Waiting(t, m). -/
def Thread.waitsAt (t : Thread) (m : Nat) : Bool := t.blocked == .waitm m

/-- Whether every member of a mask waits on it, and it has a member. -/
def Gang.allWait (g : Gang) (m : Nat) : Bool :=
  g.mask m != 0#32 && (lanesOf (g.mask m)).all fun l => (g.threads.getD l Thread.blank).waitsAt m

/-- TryRelease of R30: all members of a mask that wait are released together. -/
def Gang.tryRelease (g : Gang) (m : Nat) : Gang :=
  if g.allWait m then g.mapLanes (lanesOf (g.mask m)) fun _ t => { t with blocked := .released (g.mask m) } else g

/-- Write a mask; threads that wait on it and are no longer members go on (R157, R187), then TryRelease. -/
def Gang.writeMask (g : Gang) (m : Nat) (v : W32) : Gang :=
  let g := { g with masks := g.masks.set m v }
  let out := (List.range 32).filter fun l => !v.getLsbD l && (g.threads.getD l Thread.blank).waitsAt m
  (g.mapLanes out fun _ t => { t with blocked := .none }).tryRelease m

/-- The lanes of the gang that have not exited. -/
def Gang.live (g : Gang) : W32 := maskOf ((List.range 32).filter fun l => !(g.threads.getD l Thread.blank).exited)

/-- A word on a mask index. -/
def maskWord (st : State) (m : BitVec 7) (fs : List Field) (f : Issue → List Nat → Gang → Gang) :
    Host.Outcome State Fault Refusal :=
  pathWord st (fun _ => fieldCheck st.curWord true (.idx m.toNat 12 :: fs)) fun i ok s =>
    (s.modGang i.cursor.team i.cursor.gang (f i ok)).settleReleases i.cursor.team i.cursor.gang

/-- JOIN. -/
def execJoin (m : BitVec 7) (st : State) : Host.Outcome State Fault Refusal :=
  maskWord st m [] fun _ ok g => { g with masks := g.masks.set m.toNat (g.mask m.toNat ||| maskOf ok) }

/-- LEAVE. -/
def execLeave (m : BitVec 7) (st : State) : Host.Outcome State Fault Refusal :=
  maskWord st m [] fun _ ok g =>
    ({ g with masks := g.masks.set m.toNat (g.mask m.toNat &&& ~~~maskOf ok) }).tryRelease m.toNat

/-- WAITM: members block until every member waits; a thread that is no member goes on (R30). -/
def execWaitm (m : BitVec 7) (st : State) : Host.Outcome State Fault Refusal :=
  maskWord st m [] fun _ ok g =>
    let members := ok.filter fun l => (g.mask m.toNat).getLsbD l
    (g.mapLanes members fun _ t => { t with blocked := .waitm m.toNat }).tryRelease m.toNat

/-- MSET: the value of the highest active lane, among the live lanes (R157), whose traps are every active thread's
(R314). -/
def execMset (m b : BitVec 7) (st : State) : Host.Outcome State Fault Refusal :=
  pathWord st (fun i => i.pathTrap (fieldCheck i.word true [.idx m.toNat 12, .src b 1]) i.active.getLast?) fun i ok s =>
    (s.modGang i.cursor.team i.cursor.gang fun g =>
      match ok.getLast? with
      | none => g
      | some l => g.writeMask m.toNat (((i.lane l).read b).setWidth 32 &&& g.live)).settleReleases i.cursor.team i.cursor.gang

/-- MGET. -/
def execMget (d m : BitVec 7) (st : State) : Host.Outcome State Fault Refusal :=
  maskWord st m [.dst d 1] fun i ok g => g.mapLanes ok fun l t => setReg (i.lane l) d ((g.mask m.toNat).setWidth 64) t

/-! ## Votes (R159) -/

/-- The lanes of a list whose register is nonzero. -/
def Issue.nonzero (i : Issue) (ok : List Nat) (a : BitVec 7) : List Nat := ok.filter fun l => (i.lane l).read a != 0#64

/-- A vote: each thread's new state from its own and the active lanes. An active lane that traps at the word takes no part
in it; R159 takes the active threads and names no such lane (DESIGN CHOICE, log 57). -/
def voteWord (st : State) (fs : List Field) (f : Issue → List Nat → Nat → Thread → Thread) :
    Host.Outcome State Fault Refusal :=
  pathWord st (fun _ => fieldCheck st.curWord true fs) fun i ok s =>
    s.modGang i.cursor.team i.cursor.gang fun g => g.mapLanes ok (f i ok)

/-- ANY. -/
def execAnyVote (p a : BitVec 7) (st : State) : Host.Outcome State Fault Refusal :=
  voteWord st [.idx p.toNat 8, .src a 1] fun i ok _ t => t.setPred p.toNat !(i.nonzero ok a).isEmpty

/-- ALL. -/
def execAllVote (p a : BitVec 7) (st : State) : Host.Outcome State Fault Refusal :=
  voteWord st [.idx p.toNat 8, .src a 1] fun i ok _ t => t.setPred p.toNat (i.nonzero ok a == ok)

/-- BALLOT. -/
def execBallot (d a : BitVec 7) (st : State) : Host.Outcome State Fault Refusal :=
  voteWord st [.dst d 1, .src a 1] fun i ok l t => setReg (i.lane l) d ((maskOf (i.nonzero ok a)).setWidth 64) t

/-- ELECT. -/
def execElect (p : BitVec 7) (st : State) : Host.Outcome State Fault Refusal :=
  voteWord st [.idx p.toNat 8] fun _ ok l t => t.setPred p.toNat (ok.head? == some l)

/-- MATCH. -/
def execMatchLanes (d a : BitVec 7) (st : State) : Host.Outcome State Fault Refusal :=
  voteWord st [.dst d 1, .src a 1] fun i ok l t =>
    setReg (i.lane l) d ((maskOf (ok.filter fun k => (i.lane k).read a == (i.lane l).read a)).setWidth 64) t

/-- ACTIVE. -/
def execActive (d : BitVec 7) (st : State) : Host.Outcome State Fault Refusal :=
  voteWord st [.dst d 1] fun i ok l t => setReg (i.lane l) d ((maskOf ok).setWidth 64) t

end Sys2Proof.Machine
end

