-- ==== Sys2Proof/Machine/Special.lean ====
section
/-! DEFINITION. The special functions of R194 and R195. FRCP and FSQRT are exact roundings. FRSQ delivers one of the
two neighbours of the exact value, and FEX2, FLG2, FSIN, FCOS and FTNH a value within 2 ulp: which one is free. -/

namespace Sys2Proof.Machine

/-! ## Integer helpers, in fixed point with 576 fraction bits -/

/-- The fraction bits of the fixed-point numbers here: enough to tell every exact value of an F32 operand from the values
that 2 ulp single out. -/
def fixBits : Nat := 576

/-- 1.0 in fixed point. -/
def fixOne : Int := (2 ^ fixBits : Nat)

/-- π / 2 in fixed point, rounded down. -/
def fixHalfPi : Int :=
  388505686138659689880275522152360788178785200734183700666209834496657756784109956983416853759433875210892359290301925837107036658103523735576115587402175736472150285165067661

/-- ln 2 in fixed point, rounded down. -/
def fixLn2 : Int :=
  171436370447841751810397033449194206923863603888853761105325500776960719192244778072115017417183862947462110757002900991935266221463676335241802912555763396667947900633540805

/-- A product in fixed point, rounded down. -/
def fixMul (x y : Int) : Int := x * y / fixOne

/-- A value m × 2^e in fixed point, rounded down. -/
def fixOf (neg : Bool) (m : Nat) (e : Int) : Int :=
  let v : Int := if e + fixBits ≥ 0 then (m <<< (e + fixBits).toNat : Nat) else (m >>> (-(e + fixBits)).toNat : Nat)
  if neg then -v else v

/-- The integer square root, from bit i downward. -/
def isqrtFrom (n : Nat) : Nat → Nat → Nat
  | 0, r => r
  | i + 1, r => let c := r + 2 ^ i; isqrtFrom n i (if c * c ≤ n then c else r)

/-- The integer square root of a number of fewer than 2 × bits bits. -/
def isqrt (n bits : Nat) : Nat := isqrtFrom n bits 0

/-- The sum of the series t + t·x/(k+1) + t·x²/((k+1)(k+2)) + …, with fuel terms. -/
def expSeries (x : Int) : Nat → Nat → Int → Int
  | 0, _, _ => 0
  | fuel + 1, k, t => t + expSeries x fuel (k + 1) (fixMul t x / ((k + 1 : Nat) : Int))

/-- exp x − 1 for 0 ≤ x < 20. -/
def fixExpm1 (x : Int) : Int := expSeries x 300 1 x

/-- The alternating series with ratio −x²/((k+1)(k+2)). -/
def trigSeries (x2 : Int) : Nat → Nat → Int → Int
  | 0, _, _ => 0
  | fuel + 1, k, t => t + trigSeries x2 fuel (k + 2) (-(fixMul t x2) / (((k + 1) * (k + 2) : Nat) : Int))

def fixSin (x : Int) : Int := trigSeries (fixMul x x) 70 1 x
def fixCos (x : Int) : Int := trigSeries (fixMul x x) 70 0 fixOne

/-- The binary logarithm of y in [1, 2), bit by bit from a weight downward. -/
def log2Bits : Nat → Int → Int → Int
  | 0, _, _ => 0
  | fuel + 1, y, w =>
    let s := fixMul y y
    if s ≥ 2 * fixOne then w + log2Bits fuel (s / 2) (w / 2) else log2Bits fuel s (w / 2)

def fixLog2 (y : Int) : Int := log2Bits 160 y (fixOne / 2)

/-! ## Exact roundings -/

/-- A quotient or root with a bit that says whether anything was cut off: exactly the value's place for one rounding. -/
def sticky (k : Nat) (cut : Bool) : Nat := 2 * k + (if cut then 1 else 0)

/-- FRCP (Table 8.6). -/
def frcpOf (f : FloatFmt) (x : Fp) : FpResult :=
  match x with
  | .nan s => f.nan s
  | .inf neg => { bits := f.signBit neg, flags := 0#5, sat := false }
  | .fin neg m e =>
    if m == 0 then { bits := f.infBits neg, flags := flagDz, sat := false }
    else
      let s := 2 * f.fracBits + 6 + m.log2
      f.ofFp (.fin neg (sticky (2 ^ s / m) (2 ^ s % m != 0)) (-(s : Int) - e - 1)) .rne false

/-- m × 2^e with an even exponent. -/
def evenExponent (m : Nat) (e : Int) : Nat × Int := if e % 2 == 0 then (m, e) else (2 * m, e - 1)

/-- FSQRT (Table 8.6). -/
def fsqrtOf (f : FloatFmt) (x : Fp) : FpResult :=
  match x with
  | .nan s => f.nan s
  | .inf neg => if neg then f.nan true else { bits := f.infBits false, flags := 0#5, sat := false }
  | .fin neg m e =>
    if m == 0 then { bits := f.signBit neg, flags := 0#5, sat := false }
    else if neg then f.nan true
    else
      let (m, e) := evenExponent m e
      let n := m * 4 ^ (f.fracBits + 4)
      let r := isqrt n (f.fracBits * 2 + 8)
      f.ofFp (.fin false (sticky r (r * r != n)) (e / 2 - (f.fracBits + 4 : Nat) - 1)) .rne false

/-- FRSQ (Table 8.6): a neighbour of the exact value, and the exact value where it is representable. -/
def frsqOf (f : FloatFmt) (bits : Nat) (x : Fp) : FpResult :=
  match x with
  | .nan s => f.nan s
  | .inf neg => if neg then f.nan true else { bits := 0, flags := 0#5, sat := false }
  | .fin neg m e =>
    if m == 0 then { bits := f.infBits neg, flags := flagDz, sat := false }
    else if neg then f.nan true
    else
      let (m, e) := evenExponent m e
      let s := f.fracBits + 6 + m.log2
      let r := isqrt (4 ^ s / m) (s + 1)
      let up := Config.frsqUp (f.fracBits == 52) bits
      f.ofFp (.fin false (sticky r (r * r * m != 4 ^ s)) (-(s : Int) - e / 2 - 1)) (if up then .rup else .rtz) false

/-! ## The functions within 2 ulp -/

/-- Whether c half ulps are a value of the format, for the binade whose ulp is 2^q: those below it stand half an ulp
apart, unless it is the least, and those above it two. -/
def halfUlps (q c : Int) : Bool :=
  if c.natAbs < 2 ^ (f32.fracBits + 1) then c % 2 == 0 || decide (f32.emin - f32.fracBits < q)
  else if c.natAbs < 2 ^ (f32.fracBits + 2) then c % 2 == 0
  else c % 4 == 0

/-- The values less than 2 ulp from v, a nonzero fixed-point value (R194), in half ulps, least first, with the exponent of
those. -/
def near (v : Int) : List (Int × Int) :=
  let q0 : Int := (v.natAbs.log2 : Int) - fixBits - f32.fracBits
  let q := if q0 < f32.emin - f32.fracBits then f32.emin - f32.fracBits else q0
  let half : Int := fixOf false 1 (q - 1)
  let cands := (List.range 10).map fun (n : Nat) => v / half + ((n : Int) - 4)
  (cands.filter fun c => decide ((c * half - v).natAbs < 4 * half.natAbs) && halfUlps q c).map fun c => (c, q - 1)

/-- A value less than 2 ulp from v; nx always, and of or uf as the exact value's rounding has them (R195). -/
def nearResult (fn bits : Nat) (v : Int) : FpResult :=
  let cs := near v
  let (c, q) := cs.getD (Config.functionChoice fn bits % cs.length) (0, 0)
  let r := f32.ofFp (.fin (if c == 0 then decide (v < 0) else decide (c < 0)) c.natAbs q) .rne false
  let x := f32.ofFp (.fin (decide (v < 0)) (sticky v.natAbs true) (-(fixBits : Int) - 1)) .rne false
  { bits := r.bits, flags := flagNx ||| (x.flags &&& flagUf), sat := false }

/-- FEX2 (Table 8.6). -/
def fex2Of (bits : Nat) (x : Fp) : FpResult :=
  match x with
  | .nan s => f32.nan s
  | .inf neg => { bits := if neg then 0 else f32.infBits false, flags := 0#5, sat := false }
  | .fin neg m e =>
    if m == 0 then f32.ofFp (.fin false 1 0) .rne false
    else if !x.lt (.fin false 128 0) then { bits := f32.infBits false, flags := flagOf ||| flagNx, sat := false }
    else if x.lt (.fin true 150 0) then { bits := 0, flags := flagUf ||| flagNx, sat := false }
    else
      let v := fixOf neg m e
      let k := v / fixOne
      let whole := (roundTo .rtz neg m e 0)
      if !whole.2 && decide (k ≥ -149) then f32.ofFp (.fin false 1 k) .rne false
      else
        let y := fixOne + fixExpm1 (fixMul (v - k * fixOne) fixLn2)
        nearResult 3 bits (if k ≥ 0 then y * (2 ^ k.toNat : Nat) else y / (2 ^ (-k).toNat : Nat))

/-- FLG2 (Table 8.6). -/
def flg2Of (bits : Nat) (x : Fp) : FpResult :=
  match x with
  | .nan s => f32.nan s
  | .inf neg => if neg then f32.nan true else { bits := f32.infBits false, flags := 0#5, sat := false }
  | .fin neg m e =>
    if m == 0 then { bits := f32.infBits true, flags := flagDz, sat := false }
    else if neg then f32.nan true
    else
      let k := (m.log2 : Int) + e
      if m == 2 ^ m.log2 then f32.ofFp (Fp.ofInt k 0) .rne false
      else nearResult 4 bits (k * fixOne + fixLog2 (fixOf false m (-(m.log2 : Int))))

/-- FSIN, and FCOS one quarter turn on (Table 8.6). -/
def fsinOf (quarter : Nat) (bits : Nat) (x : Fp) : FpResult :=
  match x with
  | .nan s => f32.nan s
  | .inf _ => f32.nan true
  | .fin neg m e =>
    if m == 0 then
      if quarter == 0 then { bits := f32.signBit neg, flags := 0#5, sat := false } else f32.ofFp (.fin false 1 0) .rne false
    else
      let v := fixOf neg m e
      let n := v / fixHalfPi
      let r := v - n * fixHalfPi
      let turn := (n + quarter) % 4
      let y := if turn == 0 then fixSin r else if turn == 1 then fixCos r else if turn == 2 then -fixSin r else -fixCos r
      nearResult (5 + quarter) bits y

/-- FTNH (Table 8.6). -/
def ftnhOf (bits : Nat) (x : Fp) : FpResult :=
  match x with
  | .nan s => f32.nan s
  | .inf neg => f32.ofFp (.fin neg 1 0) .rne false
  | .fin neg m e =>
    if m == 0 then { bits := f32.signBit neg, flags := 0#5, sat := false }
    else if !(Fp.fin false m e).lt (.fin false 91 0) then
      { f32.ofFp (.fin neg 1 0) .rne false with flags := flagNx }
    else if decide (fixOf false (10 * m) e ≥ 91 * fixOne) then
      { f32.ofFp (.fin neg 1 0) .rne false with flags := flagNx }
    else
      let em := fixExpm1 (2 * fixOf false m e)
      let t := em * fixOne / (em + 2 * fixOne)
      nearResult 7 bits (if neg then -t else t)

/-- The special function of a function field (R194). -/
def specialOf (fn : Nat) (f : FloatFmt) (bits : Nat) : FpResult :=
  let x := f.decode bits
  match fn with
  | 0 => frcpOf f x
  | 1 => frsqOf f bits x
  | 2 => fsqrtOf f x
  | 3 => fex2Of bits x
  | 4 => flg2Of bits x
  | 5 => fsinOf 0 bits x
  | 6 => fsinOf 1 bits x
  | _ => ftnhOf bits x

end Sys2Proof.Machine
end

