-- ==== Sys2Proof/Machine/FloatOps.lean ====
section
/-! DEFINITION. The floating-point instructions, majors 0x30 to 0x3E (R181 to R197). -/

namespace Sys2Proof.Machine

/-! ## Shared shapes -/

/-- A floating-point word: it writes one register and ORs the flags of its elements into the thread. -/
def floatWord (s : State) (legal : Bool) (fs : List Field) (d : BitVec 7) (f : Lane → W64 × Flags × Bool) :
    Host.Outcome State Fault Refusal :=
  threadWord s (fieldCheck s.curWord legal fs) fun l t =>
    let r := f l
    ((setReg l d r.1 t).orFp r.2.1).orSat r.2.2

/-- Pack element results of a format with their flags (R181). -/
def packResults (w : Nat) (rs : List FpResult) : W64 × Flags × Bool :=
  (pack w (rs.map FpResult.bits), flagsOf rs, satOf rs)

/-- An element-wise operation on two registers in a format. -/
def zipFloat (f : FloatFmt) (a b : W64) (op : Fp → Fp → FpResult) : W64 × Flags × Bool :=
  packResults f.width ((List.range (64 / f.width)).map fun j =>
    op (f.decode (elem a f.width j)) (f.decode (elem b f.width j)))

/-- An element-wise operation on one register's bit patterns in a format. -/
def mapFloat (f : FloatFmt) (a : W64) (op : Nat → FpResult) : W64 × Flags × Bool :=
  packResults f.width ((elems a f.width).map op)

/-- A result that sets no flag. -/
def quiet (bits : Nat) : FpResult := { bits, flags := 0#5, sat := false }

/-! ## Arithmetic (R182, R183) -/

/-- FADD. -/
def execFadd (r t : BitVec 2) (d a b : BitVec 7) (st : State) : Host.Outcome State Fault Refusal :=
  floatWord st true (regs3 d a b) d fun l => zipFloat (typeFmt t) (l.read a) (l.read b) ((typeFmt t).add (rndOf r))

/-- FSUB: x − y is x + (−y); a NaN y is unaffected by the sign. R280 calls the five later operations of a two-sum exact and
flagless; where R74 and R75 round one of them or overflow (the second step of a = 2^−30 and b = 1, or of a = −1.5 × 2^104
and the greatest finite b), R74 and R75 are followed (DESIGN CHOICE, log 31). -/
def execFsub (r t : BitVec 2) (d a b : BitVec 7) (st : State) : Host.Outcome State Fault Refusal :=
  floatWord st true (regs3 d a b) d fun l =>
    zipFloat (typeFmt t) (l.read a) (l.read b) fun x y => (typeFmt t).add (rndOf r) x y.negate

/-- FMUL. -/
def execFmul (r t : BitVec 2) (d a b : BitVec 7) (st : State) : Host.Outcome State Fault Refusal :=
  floatWord st true (regs3 d a b) d fun l => zipFloat (typeFmt t) (l.read a) (l.read b) ((typeFmt t).mul (rndOf r))

/-- x × y + z on three registers, element by element. -/
def ffmaValue (f : FloatFmt) (mode : Rnd) (a b d : W64) : W64 × Flags × Bool :=
  packResults f.width ((List.range (64 / f.width)).map fun j =>
    f.fma mode (f.decode (elem a f.width j)) (f.decode (elem b f.width j)) (f.decode (elem d f.width j)))

/-- FFMA. -/
def execFfma (r t : BitVec 2) (d a b : BitVec 7) (st : State) : Host.Outcome State Fault Refusal :=
  floatWord st true (regs3 d a b) d fun l => ffmaValue (typeFmt t) (rndOf r) (l.read a) (l.read b) (l.read d)

/-! ## Minimum, maximum and sign (R184, R185) -/

/-- One element of FMIN or FMAX (R184): the selected value keeps its bits. -/
def minMaxElem (f : FloatFmt) (max nan : Bool) (xb yb : Nat) : FpResult :=
  let x := f.decode xb
  let y := f.decode yb
  let bits :=
    if nan && (x.isNan || y.isNan) then f.nanBits
    else if x.isNan && y.isNan then f.nanBits
    else if x.isNan then yb
    else if y.isNan then xb
    else if max then (if x.ltSigned y then yb else xb)
    else (if y.ltSigned x then yb else xb)
  { bits, flags := flagIf (x.isSignalling || y.isSignalling) flagNv, sat := false }

/-- FMIN or FMAX on two registers. -/
def minMaxValue (f : FloatFmt) (max nan : Bool) (a b : W64) : W64 × Flags × Bool :=
  packResults f.width ((List.range (64 / f.width)).map fun j =>
    minMaxElem f max nan (elem a f.width j) (elem b f.width j))

/-- FMIN. -/
def execFmin (n : BitVec 1) (t : BitVec 2) (d a b : BitVec 7) (st : State) : Host.Outcome State Fault Refusal :=
  floatWord st true (regs3 d a b) d fun l => minMaxValue (typeFmt t) false (n == 1#1) (l.read a) (l.read b)

/-- FMAX. -/
def execFmax (n : BitVec 1) (t : BitVec 2) (d a b : BitVec 7) (st : State) : Host.Outcome State Fault Refusal :=
  floatWord st true (regs3 d a b) d fun l => minMaxValue (typeFmt t) true (n == 1#1) (l.read a) (l.read b)

/-- An element with a given sign bit; a NaN gives the canonical NaN (R185). -/
def withSign (f : FloatFmt) (x : Nat) (neg : Bool) : FpResult :=
  if (f.decode x).isNan then quiet f.nanBits else quiet (f.signBit neg + x % 2 ^ (f.width - 1))

/-- FABS. -/
def execFabs (t : BitVec 2) (d a : BitVec 7) (st : State) : Host.Outcome State Fault Refusal :=
  floatWord st true (regs2 d a) d fun l => mapFloat (typeFmt t) (l.read a) fun x => withSign (typeFmt t) x false

/-- FNEG. -/
def execFneg (t : BitVec 2) (d a : BitVec 7) (st : State) : Host.Outcome State Fault Refusal :=
  floatWord st true (regs2 d a) d fun l => mapFloat (typeFmt t) (l.read a) fun x =>
    withSign (typeFmt t) x (!x.testBit ((typeFmt t).width - 1))

/-- FCPYS on two registers. -/
def fcpysValue (f : FloatFmt) (a b : W64) : W64 × Flags × Bool :=
  packResults f.width ((List.range (64 / f.width)).map fun j =>
    withSign f (elem a f.width j) ((elem b f.width j).testBit (f.width - 1)))

/-- FCPYS. -/
def execFcpys (t : BitVec 2) (d a b : BitVec 7) (st : State) : Host.Outcome State Fault Refusal :=
  floatWord st true (regs3 d a b) d fun l => fcpysValue (typeFmt t) (l.read a) (l.read b)

/-! ## Compares (R186, R187) -/

/-- A condition of R186 and the nv it sets: 0 .eq, 1 .lt, 2 .le, 3 .un. -/
def compareElem (f : FloatFmt) (c : BitVec 2) (xb yb : Nat) : Bool × Flags :=
  let x := f.decode xb
  let y := f.decode yb
  let nan := x.isNan || y.isNan
  let signalling := x.isSignalling || y.isSignalling
  match c with
  | 0#2 => (!nan && x.eq y, flagIf signalling flagNv)
  | 1#2 => (!nan && x.lt y, flagIf nan flagNv)
  | 2#2 => (!nan && !y.lt x, flagIf nan flagNv)
  | _ => (nan, flagIf signalling flagNv)

/-- FCMP: element 0 only. -/
def execFcmp (c t : BitVec 2) (p a b : BitVec 7) (st : State) : Host.Outcome State Fault Refusal :=
  threadWord st (fieldCheck st.curWord true [.idx p.toNat 8, .src a 1, .src b 1]) fun l th =>
    let f := typeFmt t
    let r := compareElem f c (elem (l.read a) f.width 0) (elem (l.read b) f.width 0)
    (th.setPred p.toNat r.1).orFp r.2

/-- The condition of R187 on every element, and the flags of all of them. -/
def compareAll (f : FloatFmt) (c : BitVec 2) (a b : W64) : Bool × Flags :=
  let rs := (List.range (64 / f.width)).map fun j => compareElem f c (elem a f.width j) (elem b f.width j)
  (rs.all Prod.fst, rs.foldl (fun x r => x ||| r.2) 0#5)

/-- FPCMP: it writes a mask, and releases the threads it takes out of the mask (R187). -/
def execFpcmp (c t : BitVec 2) (m a b : BitVec 7) (st : State) : Host.Outcome State Fault Refusal :=
  pathWord st (fun _ => fieldCheck st.curWord true [.idx m.toNat 12, .src a 1, .src b 1]) fun i ok s =>
    State.settleReleases (team := i.cursor.team) (gang := i.cursor.gang) <| s.modGang i.cursor.team i.cursor.gang fun g =>
      let res := fun l => compareAll (typeFmt t) c ((i.lane l).read a) ((i.lane l).read b)
      let g := g.mapLanes ok fun l th => th.orFp (res l).2
      let hold := maskOf (ok.filter fun l => (res l).1)
      g.writeMask m.toNat ((g.mask m.toNat &&& ~~~maskOf ok) ||| hold)

/-! ## Conversion (R188 to R190) -/

/-- The fields of FCVT that Table 8.3 lets be nonzero. -/
def fcvtLegal (c : BitVec 4) (r : BitVec 2) (s : BitVec 3) : Bool :=
  match c.toNat with
  | 0 | 1 | 4 | 5 | 6 | 7 => r == 0#2 && s == 0#3
  | 2 | 3 | 8 | 9 | 10 | 11 => s == 0#3
  | 12 | 13 | 14 => true
  | _ => false

/-- Elements of d from index k on replaced by results of width w; the others kept. -/
def putResults (d : W64) (w k : Nat) : List FpResult → W64
  | [] => d
  | r :: rs => putResults (setElem d w k r.bits) w (k + 1) rs

/-- TOSL of R189. -/
def toSlot (slot : W64) (mode : Rnd) (d a : W64) : W64 × Flags × Bool :=
  let code := field slot.toNat 0 4
  let w := slotWidth code
  let n := min 2 (64 / w)
  let rs := (List.range n).map fun j => slotRound code (f32.decode (elem a 32 j)) mode (slot.getLsbD 8)
  let new := packNat w (rs.map FpResult.bits)
  let v := if n * w = 64 then new else (d.toNat >>> (n * w)) + new * 2 ^ (64 - n * w)
  (BitVec.ofNat 64 v, flagsOf rs, satOf rs)

/-- FROMSL of R189. -/
def fromSlot (slot : W64) (k : Nat) (mode : Rnd) (a : W64) : W64 × Flags × Bool :=
  let code := field slot.toNat 0 4
  let w := slotWidth code
  if w = 64 then
    let r := f32.ofFp (slotDecode code a.toNat) mode (slot.getLsbD 8)
    (BitVec.ofNat 64 r.bits, r.flags, r.sat)
  else
    packResults 32 ((List.range 2).map fun j =>
      f32.ofFp (slotDecode code (elem a w (2 * k + j))) mode (slot.getLsbD 8))

/-- The conversions of Table 8.3. -/
def fcvtValue (c : Nat) (slot : W64) (mode : Rnd) (d a : W64) : W64 × Flags × Bool :=
  let one := fun (src dst : FloatFmt) (j : Nat) => dst.ofFp (src.decode (elem a src.width j)) mode false
  let whole := fun (w : Nat) (rs : List FpResult) => packResults w rs
  let part := fun (w k : Nat) (rs : List FpResult) => (putResults d w k rs, flagsOf rs, satOf rs)
  match c with
  | 0 => whole 64 [one f32 f64 0]
  | 1 => whole 64 [one f32 f64 1]
  | 2 => part 32 0 [one f64 f32 0]
  | 3 => part 32 1 [one f64 f32 0]
  | 4 => whole 32 [one f16 f32 0, one f16 f32 1]
  | 5 => whole 32 [one f16 f32 2, one f16 f32 3]
  | 6 => whole 32 [one bf16 f32 0, one bf16 f32 1]
  | 7 => whole 32 [one bf16 f32 2, one bf16 f32 3]
  | 8 => part 16 0 [one f32 f16 0, one f32 f16 1]
  | 9 => part 16 2 [one f32 f16 0, one f32 f16 1]
  | 10 => part 16 0 [one f32 bf16 0, one f32 bf16 1]
  | 11 => part 16 2 [one f32 bf16 0, one f32 bf16 1]
  | 12 => toSlot slot mode d a
  | 13 => fromSlot slot 0 mode a
  | _ => fromSlot slot 1 mode a

/-- The format slot that a word of the issuing path names. -/
def State.curSlot (s : State) (k : Nat) : W64 :=
  match s.issue with
  | some i => i.launch.slot k
  | none => 0#64

/-- FCVT. .fromsl1 with a 32- or 64-bit slot raises ILLOPND (R189); [63:32] of its TRAPINFO is 0 (R316). -/
def execFcvt (c : BitVec 4) (d a : BitVec 7) (r : BitVec 2) (s : BitVec 3) (st : State) :
    Host.Outcome State Fault Refusal :=
  let slot := st.curSlot s.toNat
  let wide := c == 14#4 && decide (slotWidth (field slot.toNat 0 4) ≥ 32)
  floatWord st (fcvtLegal c r s) (regs2 d a ++ [.must (!wide) 0]) d fun l =>
    fcvtValue c.toNat slot (rndOf r) (l.read d) (l.read a)

/-- FRND (R191). -/
def execFrnd (r t : BitVec 2) (d a : BitVec 7) (st : State) : Host.Outcome State Fault Refusal :=
  floatWord st true (regs2 d a) d fun l =>
    mapFloat (typeFmt t) (l.read a) fun x => (typeFmt t).integral (rndOf r) ((typeFmt t).decode x)

/-- FTOI of one element (R192). -/
def ftoiElem (f : FloatFmt) (mode : Rnd) (u : BitVec 1) (x : Nat) : FpResult :=
  let r := toInteger (u != 1#1) f.width mode (f.decode x)
  { bits := wrap r.1 f.width, flags := r.2, sat := false }

/-- FTOI. -/
def execFtoi (r t : BitVec 2) (d a : BitVec 7) (u : BitVec 1) (st : State) : Host.Outcome State Fault Refusal :=
  floatWord st true (regs2 d a) d fun l => mapFloat (typeFmt t) (l.read a) (ftoiElem (typeFmt t) (rndOf r) u)

/-- ITOF of one element (R193): a magnitude above the largest finite one has overflowed, in every mode, as the rule's
example has it for 65,535 into F16. -/
def itofElem (f : FloatFmt) (mode : Rnd) (u : BitVec 1) (x : Nat) : FpResult :=
  let v := interpret u f.width x
  let r := f.ofFp (Fp.ofInt v 0) mode false
  let cut := (mode == .rtz || mode == .rdn) && (f.decode f.maxBits).lt (Fp.ofInt v 0)
  { r with flags := r.flags ||| flagIf cut flagOf }

/-- ITOF. -/
def execItof (r t : BitVec 2) (d a : BitVec 7) (u : BitVec 1) (st : State) : Host.Outcome State Fault Refusal :=
  floatWord st true (regs2 d a) d fun l => mapFloat (typeFmt t) (l.read a) (itofElem (typeFmt t) (rndOf r) u)

/-! ## Special functions (R194, R195) -/

/-- A special function of F32×2, or of F64 where f is 1. -/
def specialWord (st : State) (fn : Nat) (f : BitVec 1) (d a : BitVec 7) : Host.Outcome State Fault Refusal :=
  let fmt := if f = 1#1 then f64 else f32
  floatWord st true (regs2 d a) d fun l => mapFloat fmt (l.read a) (specialOf fn fmt)

/-- FRCP. -/
def execFrcp (f : BitVec 1) (d a : BitVec 7) (st : State) : Host.Outcome State Fault Refusal := specialWord st 0 f d a

/-- FRSQ. -/
def execFrsq (f : BitVec 1) (d a : BitVec 7) (st : State) : Host.Outcome State Fault Refusal := specialWord st 1 f d a

/-- FSQRT. -/
def execFsqrt (f : BitVec 1) (d a : BitVec 7) (st : State) : Host.Outcome State Fault Refusal := specialWord st 2 f d a

/-- FEX2. -/
def execFex2 (d a : BitVec 7) (st : State) : Host.Outcome State Fault Refusal := specialWord st 3 0#1 d a

/-- FLG2. -/
def execFlg2 (d a : BitVec 7) (st : State) : Host.Outcome State Fault Refusal := specialWord st 4 0#1 d a

/-- FSIN. -/
def execFsin (d a : BitVec 7) (st : State) : Host.Outcome State Fault Refusal := specialWord st 5 0#1 d a

/-- FCOS. -/
def execFcos (d a : BitVec 7) (st : State) : Host.Outcome State Fault Refusal := specialWord st 6 0#1 d a

/-- FTNH. -/
def execFtnh (d a : BitVec 7) (st : State) : Host.Outcome State Fault Refusal := specialWord st 7 0#1 d a

/-! ## Scaling and classes (R196, R197) -/

/-- FSCL on two registers. -/
def fsclValue (f : FloatFmt) (a b : W64) : W64 × Flags × Bool :=
  packResults f.width ((List.range (64 / f.width)).map fun j =>
    f.scale (f.decode (elem a f.width j)) (signExtend (elem b f.width j) f.width))

/-- FSCL. -/
def execFscl (t : BitVec 2) (d a b : BitVec 7) (st : State) : Host.Outcome State Fault Refusal :=
  floatWord st true (regs3 d a b) d fun l => fsclValue (typeFmt t) (l.read a) (l.read b)

/-- FCLS. -/
def execFcls (t : BitVec 2) (d a : BitVec 7) (st : State) : Host.Outcome State Fault Refusal :=
  floatWord st true (regs2 d a) d fun l => mapFloat (typeFmt t) (l.read a) fun x =>
    quiet (2 ^ (typeFmt t).classify x)

end Sys2Proof.Machine
end

