-- ==== Sys2Proof/Machine/Sync.lean ====
section
/-! DEFINITION. Atomics and reductions, fences, WAITF, named barriers and GBAR: majors 0x55 to 0x5C (R211 to R218),
and the operations that their sync engines perform. -/

namespace Sys2Proof.Machine

/-! ## What a sync engine computes (Table 9.3) -/

/-- A new value with the sticky flags that it raises. -/
structure AtomicValue where
  value : Nat
  sat : Bool
  fp : Flags
  deriving DecidableEq, Repr

/-- A value that raises no flag. -/
def AtomicValue.plain (v : Nat) : AtomicValue := { value := v, sat := false, fp := 0#5 }

/-- The format of an atomic of a size. -/
def atomicFmt (size : Nat) : FloatFmt := if size == 8 then f64 else f32

/-- The new value of operation o on old value x and operand y of size bytes. -/
def atomicNew (o size x y : Nat) : AtomicValue :=
  let n := 8 * size
  let f := atomicFmt size
  match o with
  | 0 => .plain ((x + y) % 2 ^ n)
  | 1 => .plain (x &&& y)
  | 2 => .plain (x ||| y)
  | 3 => .plain (x ^^^ y)
  | 4 => .plain (if signExtend y n < signExtend x n then y else x)
  | 5 => .plain (if signExtend x n < signExtend y n then y else x)
  | 6 => .plain (min x y)
  | 7 => .plain (max x y)
  | 8 => .plain y
  | 9 => .plain (if x ≥ y then 0 else x + 1)
  | 10 => .plain (if x = 0 ∨ x > y then y else x - 1)
  | 11 => let r := satS (signExtend x n + signExtend y n) n; { value := wrap r.1 n, sat := r.2, fp := 0#5 }
  | 12 => let r := satU (x + y) n; { value := wrap r.1 n, sat := r.2, fp := 0#5 }
  | 13 => let r := f.add .rne (f.decode x) (f.decode y); { value := r.bits, sat := false, fp := r.flags }
  | 14 => let r := minMaxElem f false false x y; { value := r.bits, sat := false, fp := r.flags }
  | _ => let r := minMaxElem f true false x y; { value := r.bits, sat := false, fp := r.flags }

/-- The low bytes of an operand. -/
def lowBytes (size : Nat) (v : W64) : Nat := v.toNat % 2 ^ (8 * size)

/-- A WAITF condition (R215): .eq, .ne, .ge, .lt, unsigned. -/
def waitfHolds (c : BitVec 2) (v b : W64) : Bool :=
  match c with
  | 0#2 => v == b
  | 1#2 => v != b
  | 2#2 => decide (b ≤ v)
  | _ => decide (v < b)

/-! ## Performing at the home (R92) -/

/-- The bytes, operation and destination of an atomic or CAS, and what it writes of an old value. -/
def SyncAct.atomicOn (a : SyncAct) (x : Nat) : Option AtomicValue :=
  match a with
  | .atomic op size _ _ v _ => some (atomicNew op size x (lowBytes size v))
  | .reduce op size _ _ v => some (atomicNew op size x (lowBytes size v))
  | .cas size _ _ e v _ => if x == lowBytes size e then some (.plain (lowBytes size v)) else none
  | _ => none

def SyncAct.size : SyncAct → Nat
  | .atomic _ size .. | .reduce _ size .. | .cas size .. => size
  | _ => 8

def SyncAct.phys : SyncAct → Nat
  | .atomic _ _ _ pa .. | .reduce _ _ _ pa _ | .cas _ _ pa .. | .waitf _ _ pa .. => pa
  | _ => 0

/-- Where an atomic's old value goes. -/
def SyncAct.dest : SyncAct → Dest
  | .atomic _ _ _ _ _ d | .cas _ _ _ _ _ d => d
  | _ => .discard

/-- The flit that asks a target's sync engine for the same (DESIGN CHOICE, log 47). -/
def SyncAct.flit : SyncAct → List Byte
  | .atomic op size _ _ v _ => requestFlit size op v 0#64
  | .reduce op size _ _ v => requestFlit size (requestReduce op) v 0#64
  | .cas size _ _ e v _ => requestFlit size requestCas e v
  | _ => requestFlit 8 0 0#64 0#64

/-- A performance in device memory: the memory written, with the old value, or a consumption of poison. -/
inductive Performed where
  | poisoned
  | done (s : State) (old : Nat) (sat : Bool) (fp : Flags)

/-- Read, compute and write at one point, at the sync engine of the home die, which then holds the line. -/
def State.performAtomic (s : State) (a : SyncAct) : Performed :=
  if s.poisonedAt a.phys a.size then .poisoned
  else
    let s := s.holdLine (a.phys / 256)
    let x := s.homeRead a.phys a.size
    match a.atomicOn x with
    | none => .done s x false 0#5
    | some v => .done (s.deviceWrite a.phys (bytesOfNat a.size v.value)) x v.sat v.fp

/-- The result of an atomic reaches its thread. -/
def Thread.takeAtomic (t : Thread) (d : Dest) (old : Nat) (sat : Bool) (fp : Flags) : Thread :=
  ((t.write d (BitVec.ofNat 64 old)).orSat sat).orFp fp

/-! ## Atomics, reductions and CAS (R211 to R213) -/

/-- A traced task's atomic on a tracked page raises TRACECONFLICT (R108). -/
def State.atomicTrap (s : State) (i : Issue) (r : Reached) : Option Trap :=
  if (s.tracedAt i r.leaf).isSome then some { cause := Cause.traceconflict, info := r.access.va } else none

/-- Sending an atomic invalidates the issuing core's L1 sector (R92). -/
def State.sendAtomic (s : State) (i : Issue) (pa : Nat) : State := s.dropSector i.team.core (sectorOf pa)

/-- Under DET a synchronising word's operation is performed at its grant: the thread's earlier reads have bound, its
stores to the bytes have been acknowledged, and what a release or an acquire puts before it has been applied by then. -/
def syncStall (fence : Bool) (s : State) (i : Issue) (rs : List Reached) : Option Stall :=
  if fence && fenceHolds i (rs.map Reached.lane) then some .hold
  else if i.det && rs.any fun r =>
      !s.readsBound i.cursor.team i.cursor.gang r.lane || s.behind i [r.lane] ||
        !s.applied i.team.core (i.thread r.lane).relStore || s.pendsBefore i.team.core i.cursor.team i.cursor.gang r.lane (i.thread r.lane).memSeq r.pa r.access.size true
    then some .hold
  else none

/-- A returning atomic or CAS: each lane's operation is pending until its engine has performed it. -/
def atomicWord (st : State) (fs : List Field) (a : BitVec 7) (size : Nat) (act : Issue → Reached → SyncAct) :
    Host.Outcome State Fault Refusal :=
  MemWord.exec
    { flagged := true, dooms := true, sync := some act, check := fieldCheck st.curWord true fs
      access := fun l => { va := l.read a, size, need := .atomic, code := 2 }
      stall := syncStall true
      act := fun i r s =>
        match s.atomicTrap i r with
        | some t => (s, .trap t)
        | none =>
          ((s.sendAtomic i r.pa).addOp i r.lane (.atomic (act i r)), .done) } st

/-- ATOM. -/
def execAtom (o : BitVec 4) (d a b : BitVec 7) (st : State) : Host.Outcome State Fault Refusal :=
  atomicWord st (regs3 d a b) a 8 fun i r =>
    .atomic o.toNat 8 r.access.va r.pa ((i.lane r.lane).read b) ((i.lane r.lane).dest d)

/-- ATOMW. -/
def execAtomw (o : BitVec 4) (d a b : BitVec 7) (st : State) : Host.Outcome State Fault Refusal :=
  atomicWord st (regs3 d a b) a 4 fun i r =>
    .atomic o.toNat 4 r.access.va r.pa ((i.lane r.lane).read b) ((i.lane r.lane).dest d)

/-- CAS: b holds the expected value and b + 1 the new one. -/
def execCas (w : BitVec 1) (d a b : BitVec 7) (st : State) : Host.Outcome State Fault Refusal :=
  let size := if w = 1#1 then 4 else 8
  atomicWord st [.dst d 1, .src a 1, .src b 2] a size fun i r =>
    .cas size r.access.va r.pa ((i.lane r.lane).read b) ((i.lane r.lane).read (runField b 1)) ((i.lane r.lane).dest d)

/-- ATRED: a reduction of the store path. -/
def execAtred (o : BitVec 4) (z : BitVec 1) (a b : BitVec 7) (st : State) : Host.Outcome State Fault Refusal :=
  let size := if z = 1#1 then 4 else 8
  let act : Issue → Reached → SyncAct := fun i r => .reduce o.toNat size r.access.va r.pa ((i.lane r.lane).read b)
  MemWord.exec
    { flagged := false, dooms := true, sync := some act, check := fieldCheck st.curWord true [.src a 1, .src b 1]
      access := fun l => { va := l.read a, size, need := .store, code := 2 }
      stall := syncStall true
      act := fun i r s =>
        match s.atomicTrap i r with
        | some t => (s, .trap t)
        | none =>
          ((s.sendAtomic i r.pa).addStore i r.lane r.access.va r.pa (bytesOfNat size ((i.lane r.lane).read b).toNat)
            (.reduce o.toNat) false, .done) } st

/-! ## Fences (R214, Table 4.2) -/

/-- Whether a fence of a kind must wait at its word: an acquire until the thread's earlier reads have bound. -/
def fenceWaits (s : State) (i : Issue) (ls : List Nat) (kind : BitVec 2) : Bool :=
  kind != 1#2 && ls.any fun l => !s.readsBound i.cursor.team i.cursor.gang l

/-- The name above the stores and reductions that a gang has yet to see acknowledged. -/
def State.gangMark (s : State) (core team gang : Nat) : Nat :=
  ((s.core core).stores.filter fun x => !x.deferred && x.command.isNone && x.team == team && x.countGang == gang).foldl
    (fun m x => max m (x.uid + 1)) 0

/-- AR at device or system scope takes its place in the order of such fences once the gang's stores have been
acknowledged: the thread's later loads issue, and bind after that (R89, R214). -/
def Thread.order (t : Thread) (mark : Nat) : Thread := { t with seen := max t.seen mark }

/-- FENCE. A member of an open transaction dooms it and does nothing else. -/
def execFence (s k : BitVec 2) (st : State) : Host.Outcome State Fault Refusal :=
  match st.issue with
  | none => .fault .noIssuingPath
  | some i =>
    let legal := s != 3#2 && k != 3#2
    let ls := i.active.filter fun l => !i.gang.inTx l
    if legal && fenceWaits st i ls k then .next (st.hold i)
    else
      .next (runWord st i (fieldCheck i.word legal []) fun ok t =>
        let doomed := ok.filter fun l => i.gang.inTx l
        let acting := ok.filter fun l => !i.gang.inTx l
        let t := if doomed.isEmpty then t else t.modGang i.cursor.team i.cursor.gang fun g => g.doom 5
        let t := if k == 0#2 then t
          else acting.foldl (fun t l => t.releaseThread i.team.core i.cursor.team i.cursor.gang l) t
        if acting.isEmpty || s == 0#2 then t
        else
          let t := if k != 1#2 then t.invalidateL1 i.team.core else t
          let t := if k == 2#2 then
              t.modGang i.cursor.team i.cursor.gang fun g => g.mapLanes acting fun l th =>
                th.order (max (st.gangMark i.team.core i.cursor.team i.cursor.gang)
                  (st.ownMark i.team.core i.cursor.team i.cursor.gang l))
            else t
          if k != 0#2 && i.gang.unacked != 0 then
            t.modGang i.cursor.team i.cursor.gang fun g => g.mapLanes acting fun _ th => { th with relHold := true }
          else t)

/-! ## WAITF (R215) -/

/-- Whether a thread's own accesses to the bytes that it observes, and what its acquires put before them, are behind
it. -/
def State.observes (s : State) (core team gang lane pa : Nat) : Bool :=
  let th := (s.thread? team gang lane).getD Thread.blank
  !s.pendsBefore core team gang lane th.memSeq pa 8 true && s.applied core th.seen && !s.acquires team gang lane th.memSeq

/-- WAITF: each lane waits until an observation satisfies its condition. -/
def execWaitf (c : BitVec 2) (d a b : BitVec 7) (st : State) : Host.Outcome State Fault Refusal :=
  MemWord.exec
    { flagged := false, dooms := true
      sync := some fun i r => .waitf c r.access.va r.pa ((i.lane r.lane).read b) ((i.lane r.lane).dest d)
      check := fieldCheck st.curWord true (regs3 d a b)
      access := fun l => { va := l.read a, size := 8, need := .load, code := 0 }
      stall := syncStall false
      act := fun i r s =>
        match s.atomicTrap i r with
        | some t => (s, .trap t)
        | none =>
          (s.modThread i.cursor.team i.cursor.gang r.lane fun t =>
            { t with blocked := .waitf c r.access.va r.pa ((i.lane r.lane).read b) ((i.lane r.lane).dest d) true i.path.prefixAddr }, .done) } st

/-! ## Named barriers (R216, R217) -/

/-- The latest arrival of a thread at a barrier. -/
def Thread.mine (t : Thread) (id : Nat) : Option Nat := (t.arrivals.find? fun a => a.1 == id).map Prod.snd

def Team.barrier (t : Team) (id : Nat) : Barrier :=
  t.barriers.getD id { expected := 0, arrivals := 0, episode := 0, mark := 0 }

/-- Threads that wait on an episode below P go on, after the stores that the arrivals have released (R95). -/
def Thread.wakeBarrier (t : Thread) (id p mark : Nat) : Thread :=
  match t.blocked with
  | .barrier b e => if b == id && decide (e < p) then { t.order mark with blocked := .none } else t
  | _ => t

/-- Arrive(t) of R217 at a barrier that is not idle, with the mark of what it releases. -/
def Team.arrive (t : Team) (gang lane id mark : Nat) : Team :=
  let b := { t.barrier id with mark := max (t.barrier id).mark mark }
  let t := t.modGang gang fun g => g.modThread lane fun th => { th with arrivals := insertAt th.arrivals id b.episode }
  if b.arrivals + 1 == b.expected then
    { t with
      barriers := t.barriers.set id { b with arrivals := 0, episode := b.episode + 1 }
      gangs := t.gangs.map fun g => { g with threads := g.threads.map fun th => th.wakeBarrier id (b.episode + 1) b.mark } }
  else { t with barriers := t.barriers.set id { b with arrivals := b.arrivals + 1 } }

/-- Wait(t) of R217. -/
def Team.await (t : Team) (gang lane id : Nat) : Team :=
  t.modGang gang fun g => g.modThread lane fun th =>
    match th.mine id with
    | some e => if e ≥ (t.barrier id).episode then { th with blocked := .barrier id e } else th.order (t.barrier id).mark
    | none => th

/-- One lane's arrival; an idle barrier traps it. -/
def State.arriveLane (s : State) (team gang lane id : Nat) (wait : Bool) : State × Fate :=
  match s.team? team with
  | none => (s, .done)
  | some t =>
    if (t.barrier id).expected == 0 then (s, .trap { cause := Cause.barrier, info := BitVec.ofNat 64 id })
    else
      let m := s.releaseMark t.core team gang lane
      let s := (s.releaseThread t.core team gang lane).modTeam team fun t => t.arrive gang lane id m
      (if wait then s.modTeam team fun t => t.await gang lane id else s, .done)

/-- Perform a list of lanes' acts, collecting traps. -/
def actLanes (f : Nat → State → State × Fate) : List Nat → State → State × List (Nat × Fate)
  | [], s => (s, [])
  | l :: ls, s =>
    let q := f l s
    let p := actLanes f ls q.1
    (p.1, (l, q.2) :: p.2)

/-- How a word that synchronises without an address is made (R54, R219). -/
structure SyncWord where
  check : Issue → Lane → Option Trap
  wait : State → Issue → List Nat → Bool
  sync : Option (Issue → Nat → SyncAct)
  act : Issue → Nat → State → State × Fate

/-- The meaning of such a word: a member of an open transaction dooms it and does not perform it. Under DET the word's
prefixes count when its path stops at it, before its grants; R53 counts them with the word's first issue and does not say
which of the two that is (DESIGN CHOICE, log 25). -/
def SyncWord.exec (w : SyncWord) (s : State) : Host.Outcome State Fault Refusal :=
  match s.issue with
  | none => .fault .noIssuingPath
  | some i =>
    let ok := i.active.filter fun l => (w.check i (i.lane l)).isNone
    let bad := i.active.filterMap fun l => (w.check i (i.lane l)).map fun t => (l, t)
    let doomed := ok.filter fun l => i.gang.inTx l
    let acting := ok.filter fun l => !i.gang.inTx l
    if w.wait s i acting then .next (s.hold i)
    else
      let s := s.beginWord i
      let s := if doomed.isEmpty then s else s.modGang i.cursor.team i.cursor.gang fun g => g.doom 5
      let acts := if i.det then (w.sync.map fun f => acting.map fun l => (l, f i l)).getD [] else []
      if !acts.isEmpty then .next ((s.raiseAll i bad).stopAt i acts)
      else
        let q := actLanes (w.act i) acting s
        .next ((q.1.raiseAll i (sortTraps (bad ++ fateTraps q.2))).retireWord i)

/-- The check of a barrier word's id. -/
def barCheck (id : BitVec 10) (fs : List Field) (i : Issue) (l : Lane) : Option Trap :=
  l.fieldTrap i.word (fs ++ [.idx id.toNat i.team.barriers.length])

/-- An arrival is a release at team scope: it waits until the lanes' reads have bound; their stores may still be on
their way, and come before the loads of those that wait for the episode (R95, R285). -/
def arrivalWaits (s : State) (i : Issue) (ls : List Nat) : Bool :=
  ls.any fun l => !s.readsBound i.cursor.team i.cursor.gang l || s.acquires i.cursor.team i.cursor.gang l (i.thread l).memSeq

/-- BARS. -/
def execBars (i : BitVec 10) (st : State) : Host.Outcome State Fault Refusal :=
  SyncWord.exec
    { check := barCheck i [], wait := arrivalWaits, sync := some fun _ _ => .arrive i.toNat true
      act := fun c l s => s.arriveLane c.cursor.team c.cursor.gang l i.toNat true } st

/-- BARA. -/
def execBara (i : BitVec 10) (st : State) : Host.Outcome State Fault Refusal :=
  SyncWord.exec
    { check := barCheck i [], wait := arrivalWaits, sync := some fun _ _ => .arrive i.toNat false
      act := fun c l s => s.arriveLane c.cursor.team c.cursor.gang l i.toNat false } st

/-- BARW. -/
def execBarw (i : BitVec 10) (st : State) : Host.Outcome State Fault Refusal :=
  SyncWord.exec
    { check := barCheck i []
      wait := fun s c ls => ls.any fun l => !s.readsBound c.cursor.team c.cursor.gang l
      sync := none
      act := fun c l s => (s.modTeam c.cursor.team fun t => t.await c.cursor.gang l i.toNat, .done) } st

/-- The one value that BARI takes: that of the highest active lane. -/
def bariValue (i : Issue) (a : BitVec 7) : W64 :=
  match i.active.getLast? with
  | some l => (i.lane l).read a
  | none => 0#64

/-- BARI: its value faults are raised in every active thread (R314). -/
def execBari (a : BitVec 7) (i : BitVec 10) (st : State) : Host.Outcome State Fault Refusal :=
  SyncWord.exec
    { check := fun c l =>
        (c.pathTrap (barCheck i [.src a 1] c) c.active.getLast? l).or
          (if c.gang.inTx l.lane then none
          else if bariValue c a < 1#64 ∨ bariValue c a > 512#64 then
            some (illopnd c.word (bariValue c a).toNat)
          else if (c.team.barrier i.toNat).arrivals != 0 then
            some { cause := Cause.barrier, info := BitVec.ofNat 64 i.toNat }
          else none)
      wait := fun _ _ _ => false
      sync := none
      act := fun c _ s =>
        (s.modTeam c.cursor.team fun t =>
          { t with barriers := t.barriers.set i.toNat { t.barrier i.toNat with expected := (bariValue c a).toNat } }, .done) } st

/-! ## GBAR (R218) -/

/-- The root teams of a launch that run. A root task whose team has been killed or has ended no longer counts. -/
def State.rootTeams (s : State) (launch : Nat) : List Team :=
  s.teams.filter fun t => t.launch == launch && t.kill.isNone && ((s.task? t.task).map fun k => k.parent.isNone).getD false

/-- Whether every thread of every root team has arrived in the episode or exited. -/
def State.gbarComplete (s : State) (launch episode : Nat) : Bool :=
  (s.rootTeams launch).all fun t => t.gangs.all fun g => g.threads.all fun th => th.exited || th.gbarArrival == some episode

/-- Waiters of a complete episode continue, with an acquire (R95). -/
def State.checkGbar (s : State) (launch : Nat) : State :=
  match s.launch? launch with
  | none => s
  | some l =>
    let waits := (s.rootTeams launch).any fun t => t.gangs.any fun g => g.threads.any fun th => th.blocked == .gbar l.gbarEpisode
    if waits && s.gbarComplete launch l.gbarEpisode then
      let cores := ((s.rootTeams launch).map Team.core).dedup
      let s := s.modLaunch launch fun l => { l with gbarEpisode := l.gbarEpisode + 1 }
      cores.foldl State.invalidateL1
        { s with teams := s.teams.map fun t =>
            if t.launch == launch then
              { t with gangs := t.gangs.map fun g =>
                  { g with threads := g.threads.map fun th => if th.blocked == .gbar l.gbarEpisode then { th with blocked := .none } else th } }
            else t }
    else s

/-- One lane's arrival. -/
def State.gbarLane (s : State) (team gang lane launch : Nat) : State × Fate :=
  let e := ((s.launch? launch).map Launch.gbarEpisode).getD 0
  ((s.modThread team gang lane fun t => { t with gbarArrival := some e, blocked := .gbar e }).checkGbar launch, .done)

/-- GBAR. A replay is no root team of its launch: it goes on at once (R338). -/
def execGbar (st : State) : Host.Outcome State Fault Refusal :=
  SyncWord.exec
    { check := fun c l =>
        if c.gang.inTx l.lane || (c.launch.coop && c.task.parent.isNone) then none
        else some { cause := Cause.barrier, info := 0#64 }
      wait := fun s c ls => s.releaseWaits c ls
      sync := some fun _ _ => .gbar
      act := fun c l s => if c.replays then (s, .done) else s.gbarLane c.cursor.team c.cursor.gang l c.launch.uid } st

end Sys2Proof.Machine
end

