-- ==== Sys2Proof/Machine/Control.lean ====
section
/-! DEFINITION. Clause headers, control transfers, EXIT, prefixes and the window: majors 0x01 to 0x0C and the header
(R134 to R143, R152 to R156). -/

namespace Sys2Proof.Machine

/-! ## Clause headers (R134, R137) -/

/-- A set field as a set of flags. -/
def setFlagBit (f : BitVec 4) : BitVec 12 := if f.toNat < 12 then BitVec.ofNat 12 (1 <<< f.toNat) else 0#12

/-- The flags that must be clear for a clause to start. -/
def headerFlags (w : BitVec 12) (a b : BitVec 4) : BitVec 12 := w ||| setFlagBit a ||| setFlagBit b

/-- CLAUSE_HEADER. -/
def execClauseHeader (w : BitVec 12) (a b _l : BitVec 4) (_y : BitVec 1) (st : State) :
    Host.Outcome State Fault Refusal :=
  match st.issue with
  | none => .fault .noIssuingPath
  | some i => if i.gang.flags &&& headerFlags w a b = 0#12 then .next (st.retireWord i) else .next (st.hold i)

/-! ## Branches and jumps (R140, R152) -/

/-- A thread's next PC. -/
def Thread.goTo (t : Thread) (pc : W64) : Thread := { t with pc, resume := none }

/-- Lanes of a path have taken its transfer. -/
def State.markTaken (s : State) (c : Cursor) (ls : List Nat) : State :=
  s.modPath c fun p => { p with taken := p.taken ||| maskOf ls }

/-- The target of a J-format transfer. -/
def targetJ (st : State) (o : BitVec 18) : W64 :=
  match st.issue with
  | some i => i.path.header + (o.signExtend 64 <<< 2)
  | none => 0#64

/-- ALIGN, then ADDR, of an address to go to. -/
def targetTrap (a : W64) : Option Trap :=
  if a &&& 3#64 != 0#64 then some { cause := Cause.align, info := a }
  else if !canonical a then some { cause := Cause.addr, info := a }
  else none

/-- A transfer: the active threads that take it go to their targets, the others on (R136). -/
def transferWord (st : State) (fs : List Field) (target : Lane → Option W64) : Host.Outcome State Fault Refusal :=
  pathWord st (fun _ l => (fieldCheck st.curWord true fs l).or ((target l).bind targetTrap)) fun i ok s =>
    let going := ok.filter fun l => (target (i.lane l)).isSome
    (s.modGang i.cursor.team i.cursor.gang fun g =>
      g.mapLanes going fun l t => t.goTo ((target (i.lane l)).getD 0#64)).markTaken i.cursor going

/-- BRA. -/
def execBra (o : BitVec 18) (st : State) : Host.Outcome State Fault Refusal :=
  transferWord st [] fun _ => some (targetJ st o)

/-- BRP. -/
def execBrp (p : BitVec 3) (o : BitVec 18) (st : State) : Host.Outcome State Fault Refusal :=
  transferWord st [] fun l => if l.thread.pred p.toNat then some (targetJ st o) else none

/-- BRNP. -/
def execBrnp (p : BitVec 3) (o : BitVec 18) (st : State) : Host.Outcome State Fault Refusal :=
  transferWord st [] fun l => if l.thread.pred p.toNat then none else some (targetJ st o)

/-- BRZ. -/
def execBrz (a : BitVec 7) (o : BitVec 18) (st : State) : Host.Outcome State Fault Refusal :=
  transferWord st [.src a 1] fun l => if l.read a == 0#64 then some (targetJ st o) else none

/-- BRNZ. -/
def execBrnz (a : BitVec 7) (o : BitVec 18) (st : State) : Host.Outcome State Fault Refusal :=
  transferWord st [.src a 1] fun l => if l.read a == 0#64 then none else some (targetJ st o)

/-- JMPI. -/
def execJmpi (a : BitVec 7) (st : State) : Host.Outcome State Fault Refusal :=
  transferWord st [.src a 1] fun l => some (l.read a)

/-! ## Calls and returns (R153) -/

/-- The address of a return-stack entry. -/
def stackSlot (t : Thread) (depth : Nat) : W64 := t.privBase + BitVec.ofNat 64 (8 * depth)

/-- A thread that has pushed goes to its target. -/
def State.pushed (s : State) (i : Issue) (l : Nat) (target : W64) : State :=
  (s.modThread i.cursor.team i.cursor.gang l fun t =>
    ({ t with retDepth := t.retDepth + 1 } : Thread).goTo target).markTaken i.cursor [l]

/-- A thread that has popped an address goes there. -/
def Thread.popped (t : Thread) (v : W64) : Thread := ({ t with retDepth := t.retDepth - 1 } : Thread).goTo v

/-- CALL and CALLI: push the next header, and go. The push is a store that neither the trace nor the digest sees. -/
def callWord (st : State) (fs : List Field) (target : Lane → W64) : Host.Outcome State Fault Refusal :=
  MemWord.exec
    { flagged := false, dooms := false, sync := none
      check := fun l =>
        (fieldCheck st.curWord true fs l).or
          (if l.thread.retDepth ≥ 32 then some { cause := Cause.calldepth, info := target l } else targetTrap (target l))
      access := fun l => { va := stackSlot l.thread l.thread.retDepth, size := 8, need := .store, code := 1 }
      stall := fun _ i rs => if fenceHolds i (rs.map Reached.lane) then some .hold else none
      again := fun i r s => (s.pushed i r.lane (target (i.lane r.lane)), .done)
      act := fun i r s =>
        let s := s.addStore i r.lane r.access.va r.pa (bytesOfNat 8 i.path.next.toNat) .plain false
        (s.pushed i r.lane (target (i.lane r.lane)), .done) } st

/-- CALL. -/
def execCall (o : BitVec 18) (st : State) : Host.Outcome State Fault Refusal := callWord st [] fun _ => targetJ st o

/-- CALLI. -/
def execCalli (a : BitVec 7) (st : State) : Host.Outcome State Fault Refusal := callWord st [.src a 1] fun l => l.read a

/-- What a pop binds: own pushes not yet applied, the L1, or the home slice, from which it fills the L1 as any load that
misses does (R85). -/
def State.popBytes (s : State) (i : Issue) (l pa : Nat) (leaf : W64) : Option (State × List Byte) :=
  let own := s.ownStores i.team.core i.cursor.team i.cursor.gang l (i.thread l).memSeq
  match forwardAll own pa 8 with
  | some bs => some (s, bs)
  | none =>
    match ((s.core i.team.core).l1Find (sectorOf pa)).filter fun _ => Config.l1Keeps s.tick (sectorOf pa) with
    | some x => if x.poisoned then none else some (s, overlay own pa ((x.data.drop (pa % 64)).take 8))
    | none =>
      if s.poisonedAt pa 8 then none
      else some (s.boundAt i.team.core pa (pteCache leaf == 0), overlay own pa (s.mem.readBytes pa 8))

/-- One lane's pop: the popped address becomes the next PC. Private memory is device memory (Table 4.1), so a stack
that lies in the system window raises ADDR (DESIGN CHOICE, log 33). -/
def State.popLane (s : State) (i : Issue) (l : Nat) (va : W64) (pa : Nat) (leaf : W64) : State × Fate :=
  if isRemote pa then (s, .trap { cause := Cause.addr, info := va })
  else
    match s.popBytes i l pa leaf with
    | none => (s.consumePoison i.cursor.team i.cursor.gang l pa i.path.prefixAddr, .done)
    | some (s, bs) =>
      let v : W64 := BitVec.ofNat 64 (natOfBytes bs)
      let s := s.auditLog i.cursor.team (.load i.cursor.gang l s.tick va v)
      match targetTrap v with
      | some t => (s, .trap t)
      | none => ((s.modThread i.cursor.team i.cursor.gang l fun t => t.popped v).markTaken i.cursor [l], .done)

/-- RET. -/
def execRet (st : State) : Host.Outcome State Fault Refusal :=
  MemWord.exec
    { flagged := false, dooms := false, sync := none
      check := fun l => if l.thread.retDepth == 0 then some { cause := Cause.retstack, info := 0#64 } else none
      access := fun l => { va := stackSlot l.thread (l.thread.retDepth - 1), size := 8, need := .load, code := 0 }
      stall := fun s i rs =>
        if rs.any fun r => s.behind i [r.lane]
            || s.pendsBefore i.team.core i.cursor.team i.cursor.gang r.lane (i.thread r.lane).memSeq r.pa 8 false then
          some .hold
        else none
      again := fun i r s =>
        ((s.replayLoad i r.lane r.access.va fun v t => t.popped v).markTaken i.cursor [r.lane], .done)
      act := fun i r s => s.popLane i r.lane r.access.va r.pa r.leaf } st

/-! ## EXIT (R29, R154) -/

/-- A thread ends. -/
def Thread.exit (t : Thread) : Thread := { t with exited := true, blocked := .none, atRetire := .none, trapWait := .none, resume := none, relHold := false }

/-- Threads of a gang end: their mask bits clear, and the masks that lose a bit try to release. -/
def Gang.exitLanes (g : Gang) (ls : List Nat) : Gang :=
  let gone := maskOf ls
  let hit := (List.range 12).filter fun m => g.mask m &&& gone != 0#32
  let g := if ls.any fun l => g.inTx l then g.doom 8 else g
  let g := g.mapLanes ls fun _ t => t.exit
  let g := { g with masks := g.masks.map fun m => m &&& ~~~gone }
  hit.foldl Gang.tryRelease g

/-- Whether every thread of a gang has exited. -/
def Gang.allExited (g : Gang) : Bool := g.threads.all Thread.exited

/-- A gang whose threads have all exited is done, and gives up its active slot (Table 2.8). -/
def State.finishGang (s : State) (team gang : Nat) : State :=
  match s.gang? team gang with
  | some g => if g.allExited && g.residency != .done then s.vacate team gang .done else s
  | none => s

/-- A running team whose gangs are all done is exiting (Table 2.9). -/
def State.finishTeam (s : State) (team : Nat) : State :=
  s.modTeam team fun t => if t.state == .running && t.gangs.all fun g => g.residency == .done then { t with state := .exiting } else t

/-- The results of a thread's pending operations are discarded (R154). -/
def State.discardResults (s : State) (team gang : Nat) (ls : List Nat) : State :=
  { s with ops := s.ops.map fun o =>
      if o.team == team && o.gang == gang && ls.contains o.lane then { o with live := false } else o }

/-- Threads of the issuing path end. -/
def State.exitThreads (s : State) (i : Issue) (ls : List Nat) : State :=
  ((s.modGang i.cursor.team i.cursor.gang fun g => g.exitLanes ls).discardResults i.cursor.team i.cursor.gang ls).settleReleases
    i.cursor.team i.cursor.gang

/-- EXIT. -/
def execExit (st : State) : Host.Outcome State Fault Refusal :=
  match st.issue with
  | none => .fault .noIssuingPath
  | some i =>
    let s := runWord st i (fun _ => none) fun ok s => s.exitThreads i ok
    .next (((s.finishGang i.cursor.team i.cursor.gang).finishTeam i.cursor.team).checkGbar i.launch.uid)

/-! ## Prefixes (R141 to R143, R155) -/

/-- The A register run of an MMA (Table 10.3). -/
def mmaRun (paired : Bool) (slotA : W64) : Nat := (if paired then 6 else 3) + (if field slotA.toNat 4 2 == 1 then 1 else 0)

/-- The register run of ACCRD and ACCWR (R241). -/
def tileRun (slot : W64) : Nat := slotWidth (field slot.toNat 0 4) / 8

/-- The length of the A run of each repetition of an MMA: its A slot is that of the control word that the repetition
reads. -/
def aRunOf (i : Issue) (x : Instr) (sb k : Nat) : Nat :=
  match x with
  | .mma _ p _ _ _ _ b => mmaRun (p == 1#1) (i.launch.slot (field ((i.lane 0).read (b + BitVec.ofNat 7 (k * sb))).toNat 24 3))
  | _ => 1

/-- The length of the run that ACCRD or ACCWR names. -/
def matrixRun (i : Issue) : Instr → Nat
  | .accrd _ k _ _ _ | .accwr _ k _ _ _ => tileRun (i.launch.slot k.toNat)
  | _ => 1

/-- The first value that a step takes a register field to whose run, in that repetition, leaves x0 to x95. -/
def stepLeaves (f : BitVec 7) (run : Nat → Nat) (step n : Nat) : Option Nat :=
  ((List.range n).find? fun k => f.toNat + k * step + run k > 96).map fun k => f.toNat + k * step

/-- The fault of one step field (R141): what ILLOPND names, or ILLEGAL as `none` inside; `runs` are the A runs. -/
def StepField.fault (x : StepField) (runs : Nat → Nat) (step n : Nat) : Option (Option Nat) :=
  if step == 0 then none
  else
    match x with
    | .lacks => some none
    | .fixed v => some (some v)
    | .reg f run => (stepLeaves f (fun _ => run) step n).map some
    | .aRun f => (stepLeaves f runs step n).map some

/-- The first step fault of a repeated word: ILLEGAL before ILLOPND (R313). -/
def repFault (w : W32) (fs : StepField × StepField × StepField) (runs : Nat → Nat) (sd sa sb n : Nat) : Option Trap :=
  let faults := [fs.1.fault runs sd n, fs.2.1.fault runs sa n, fs.2.2.fault runs sb n]
  if faults.any (· == some none) then some (illegalTrap w)
  else (faults.findSome? fun x => x.bind id).map (illopnd w)

/-- The trap of a REP before its first repetition, if its steps are at fault. -/
def Issue.repTrap (i : Issue) (sd sa sb n : Nat) : Option Trap :=
  let w := i.path.words.getD (i.path.repeated i.path.pos) 0#32
  match decode w with
  | .ok x => repFault w (stepFields (matrixRun i x) x) (aRunOf i x sb) sd sa sb n
  | .error _ => none

/-- The repetition at which a REP begins: 0, or that at which the path's threads stopped (Table 3.6, R301). -/
def Issue.repStart (i : Issue) : Nat :=
  if i.path.start != 0 && i.path.pos == i.path.start then
    match lanesOf i.path.lanes with
    | l :: _ => field (i.thread l).repState.toNat 0 7
    | [] => 0
  else 0

/-- REP. Its faults are raised in every thread of the path at the repeated word (R314). A REP whose repetitions were
all done when its threads stopped is behind them. -/
def execRep (c : BitVec 6) (d a b : BitVec 3) (st : State) : Host.Outcome State Fault Refusal :=
  match st.issue with
  | none => .fault .noIssuingPath
  | some i =>
    let n := c.toNat + 1
    match i.repTrap d.toNat a.toNat b.toNat n with
    | some t => .next (st.raiseRep i t)
    | none =>
      if i.repStart ≥ n then
        .next (st.modGang i.cursor.team i.cursor.gang fun g => (g.setRepState i.path.lanes 0 0).nextWord
          { i.path with pos := i.path.repeated i.path.pos, prefixPos := some (i.path.prefixPos.getD i.path.pos) })
      else
        .next (st.modGang i.cursor.team i.cursor.gang fun g =>
          (g.setRepState i.path.lanes (n - i.repStart) i.repStart).prefixStep i.path fun p =>
            { p with rep := some { count := n, dStep := d.toNat, aStep := a.toNat, bStep := b.toNat, done := i.repStart } })

/-- GRD. -/
def execGrd (n : BitVec 1) (p : BitVec 3) (st : State) : Host.Outcome State Fault Refusal :=
  match st.issue with
  | none => .fault .noIssuingPath
  | some i =>
    .next (st.modGang i.cursor.team i.cursor.gang fun g => g.prefixStep i.path fun q => { q with guard := some (p, n) })

/-! ## The window (R156) -/

/-- WBASE. -/
def execWbase (i : BitVec 11) (st : State) : Host.Outcome State Fault Refusal :=
  threadWord st (fun l =>
      if i.toNat ≥ 32 then some (illopnd st.curWord i.toNat)
      else if 8 * i.toNat ≥ l.alloc then some { cause := Cause.window, info := BitVec.ofNat 64 (8 * i.toNat) }
      else none)
    fun _ t => { t with winBase := 8 * i.toNat }

end Sys2Proof.Machine
end

