-- ==== Sys2Proof/Machine/Parking.lean ====
section
/-! DEFINITION. The word that a path issues next, with the steps of its REP (R141); which gangs of a DET launch are parked
and which contend, and what waits for other gangs (R54, R245, R295, R296). -/

namespace Sys2Proof.Machine

/-! ## The word that issues (R141) -/

/-- Where a format holds the d, a and b fields of Layout 6.1, as shifts; `none` for a field that it lacks. -/
def fieldShifts (w : W32) : Option Nat × Option Nat × Option Nat :=
  let op := (major w).toNat
  if [0x26, 0x27, 0x28, 0x29].contains op then (some 18, none, none)
  else if [0x0C, 0x14, 0x1B, 0x1C, 0x1D, 0x1F, 0x23, 0x48, 0x49, 0x4A, 0x4B, 0x4D, 0x4E, 0x4F, 0x50, 0x5B, 0x69].contains op then
    (some 18, some 11, none)
  else (some 14, some 7, some 0)

/-- A word with a field increased. -/
def addField (w : W32) (shift : Option Nat) (n : Nat) : W32 :=
  match shift with
  | some k => w + BitVec.ofNat 32 (n <<< k)
  | none => w

/-- The word of a repetition. -/
def RepRun.word (r : RepRun) (w : W32) : W32 :=
  let f := fieldShifts w
  addField (addField (addField w f.1 (r.done * r.dStep)) f.2.1 (r.done * r.aStep)) f.2.2 (r.done * r.bStep)

/-- Whether a word is GRD, which a REP before it does not repeat. -/
def isGuard (w : W32) : Bool := (major w).toNat == 0x0B

/-- The instruction that a path issues next. -/
def Path.instr (p : Path) : Except DecodeError Instr :=
  let w := p.words.getD p.pos 0#32
  match p.rep with
  | some r => if isGuard w then decode w else decode (r.word w)
  | none => decode w

/-! ## Parked gangs (R54, R296) -/

/-- Whether a wait is one that a later grant ends, with no operation of its thread pending now: a WAITF that is to
observe again, or a CLAIM whose result is decided, is such an operation (R54, R296). -/
def State.waitsOnGrant (s : State) (b : Blocked) : Bool :=
  match b with
  | .barrier .. | .gbar _ | .rewarp .. => true
  | .waitf _ _ _ _ _ ready _ => !ready
  | .claim op =>
    match (s.op? op).map Op.kind with
    | some (.claim _ _ _ none) => true
    | _ => false
  | _ => false

/-- The claims of a gang that have stood in their entries' queues, and whose decided results have yet to be delivered:
each delivery is a pending synchronising operation (R296). -/
def State.decidedClaims (s : State) (team gang : Nat) : List Op :=
  s.ops.filter fun o =>
    match o.kind with
    | .claim _ _ _ (some _) => o.queued && o.live && o.team == team && o.gang == gang
    | _ => false

/-- Whether every live thread of a team has arrived at its REWARP: the regroup waits for no further grant, only for the
team's own operations (R32). -/
def Team.gathered (t : Team) : Bool := t.liveThreads.all fun x => x.2.2.atRewarp

/-- Whether a gang is parked: no thread is runnable, and every blocked one waits on a grant (R54), with no claim of it
decided (R296) and no regroup on its way. -/
def State.parked (s : State) (team gang : Nat) (g : Gang) : Bool :=
  let ls := g.threads.filter fun t => !t.exited
  !ls.isEmpty && (ls.all fun t => s.waitsOnGrant t.blocked) && (s.decidedClaims team gang).isEmpty
    && !((s.team? team).map Team.gathered).getD false

/-- Whether a gang has a live thread. -/
def Gang.alive (g : Gang) : Bool := g.threads.any fun t => !t.exited

/-! ## The comparison (R54, R296) -/

/-- What a gang that may be granted has pending: a path's first lane, a thread's observation, or a claim's delivery. -/
inductive Pending where
  | word (path : Nat)
  | observe (lane : Nat)
  | deliver (op : Nat)
  deriving DecidableEq, Repr

/-- A gang, or a gang of a task not yet admitted, in the comparison. -/
structure Contender where
  clock : Nat
  position : List (List Nat)
  gang : Nat
  team : Option Nat
  pending : Option Pending
  deriving DecidableEq, Repr

/-- Least clock, then lower ordinal, then lower gang index. -/
def Contender.lt (a b : Contender) : Bool :=
  decide (a.clock < b.clock)
    || (a.clock == b.clock && (posLt a.position b.position || (a.position == b.position && decide (a.gang < b.gang))))

/-- The deliveries of a gang's decided claims. -/
def State.decided (s : State) (team gang : Nat) : List (Nat × Pending) :=
  (s.decidedClaims team gang).map fun o => (o.lane, .deliver o.uid)

/-- The observations of a gang that are to be made again. -/
def Gang.observations (g : Gang) : List (Nat × Pending) :=
  ((g.threads.mapIdx fun l t => (l, t)).filter fun x =>
    match x.2.blocked with
    | .waitf _ _ _ _ _ true _ => !x.2.exited
    | _ => false).map fun x => (x.1, .observe x.1)

/-- The words of a gang that wait for a grant, by their lowest lane. -/
def Gang.syncWords (g : Gang) : List (Nat × Pending) :=
  g.paths.filterMap fun p => p.grants.head?.map fun a => (a.1, .word p.uid)

/-- The pending operation of the lowest lane. -/
def firstPending (ps : List (Nat × Pending)) : Option Pending :=
  (leastBy (fun a b => decide (a.1 < b.1)) ps).map Prod.snd

/-- A gang as it contends. An operation of a word counts that word (R295). -/
def State.contend (s : State) (t : Team) (k : Task) (gang : Nat) (g : Gang) : Contender :=
  match firstPending (g.observations ++ s.decided t.uid gang) with
  | some p => { clock := g.clock, position := k.position, gang, team := some t.uid, pending := some p }
  | none =>
    match firstPending g.syncWords with
    | some p => { clock := g.clock + 1, position := k.position, gang, team := some t.uid, pending := some p }
    | none => { clock := g.clock, position := k.position, gang, team := some t.uid, pending := none }

/-- The teams of a launch whose gangs count. -/
def State.detTeams (s : State) (launch : Nat) : List Team :=
  s.teams.filter fun t => t.launch == launch && t.kill.isNone && t.state != .exiting && t.state != .replay

/-- The admitted gangs that are not parked. -/
def State.unparked (s : State) (launch : Nat) : List Contender :=
  (s.detTeams launch).flatMap fun t =>
    match s.task? t.task with
    | some k =>
      ((t.gangs.mapIdx fun i g => (i, g)).filter fun x => x.2.alive && !s.parked t.uid x.1 x.2).map fun x => s.contend t k x.1 x.2
    | none => []

/-- The gangs of tasks not yet admitted, unparked at their start clocks. -/
def State.unadmitted (s : State) (launch : Nat) : List Contender :=
  (s.tasks.filter fun k => k.launch == launch && k.state == .waiting).flatMap fun k =>
    (List.range (Desc.gangs k.desc)).map fun g =>
      { clock := k.startClock, position := k.position, gang := g, team := none, pending := none }

/-! ## What waits for other gangs (R245, R295) -/

/-- Whether no gang that counts comes before a gang. -/
def State.leastContender (s : State) (launch : Nat) (me : Contender) : Bool :=
  (s.unparked launch ++ s.unadmitted launch).all fun d => (d.team == me.team && d.gang == me.gang) || me.lt d

/-- Under DET, whether no other gang of a team can still spawn before one that stands at a SPAWN. A parked gang has
1,024 more on its clock once a grant has woken it, and none wakes it while no gang that counts comes before the spawning
one. -/
def State.spawnsFirst (s : State) (t : Team) (gang : Nat) (g : Gang) : Bool :=
  (t.gangs.mapIdx fun k x => (k, x)).all fun x =>
    let before := fun (clock : Nat) => decide (g.clock < clock) || (clock == g.clock && decide (gang < x.1))
    x.1 == gang || !x.2.alive ||
      if s.parked t.uid x.1 x.2 then
        before (x.2.clock + 1024) || ((s.task? t.task).map fun k => s.leastContender t.launch (s.contend t k gang g)).getD true
      else before x.2.clock

/-- Whether a path stands at a word that waits for other gangs of a DET launch: its grant, or its turn to spawn. -/
def State.standsBehind (s : State) (t : Team) (gang : Nat) (g : Gang) (p : Path) : Bool :=
  !p.grants.isEmpty || (t.state != .replay && ((s.launch? t.launch).map Launch.det).getD false && !s.spawnsFirst t gang g &&
    match p.instr with
    | .ok (.spawn ..) | .ok (.spawnr ..) => true
    | _ => false)

/-- What comes of a DET launch's waits once a grant has written memory: every WAITF of the launch observes again. -/
def Thread.wakeWait (t : Thread) : Thread :=
  match t.blocked with
  | .waitf c va pa v d _ pc => { t with blocked := .waitf c va pa v d true pc }
  | _ => t

def State.wakeWaits (s : State) (launch : Nat) : State :=
  { s with teams := s.teams.map fun t =>
      if t.launch == launch then { t with gangs := t.gangs.map fun g => { g with threads := g.threads.map Thread.wakeWait } }
      else t }

end Sys2Proof.Machine
end

