-- ==== Sys2Proof/Machine/Vote.lean ====
section
/-! DEFINITION. GANG_VOTE: grouping, ages and serial mode (R25 to R28), the fetch of a clause and its checks (R135,
R136, R143, R165), resumption at a body word (R301, R315), and where a gang stands among the active and pending (R47). -/

namespace Sys2Proof.Machine

/-! ## Whether a clause is well formed (R135, R143) -/

def isHeader (w : W32) : Bool := field w.toNat 28 4 == 15
def headerLength (w : W32) : Nat := field w.toNat 4 4
def headerWait (w : W32) : BitVec 12 := w.extractLsb' 16 12

/-- Item 1 of R135. -/
def goodHeader (w : W32) : Bool :=
  let ok := fun (f : Nat) => f < 12 || f == 15
  isHeader w && headerLength w != 0 && field w.toNat 0 3 == 0 && ok (field w.toNat 12 4) && ok (field w.toNat 8 4)

/-- A word whose major opcode is GRD's or REP's: a prefix by its place, whether or not its other bits are legal. -/
def prefixMajor (w : W32) : Option Bool :=
  if field w.toNat 25 7 == 0x0A then some true else if field w.toNat 25 7 == 0x0B then some false else none

/-- Items 2, 4 and 5 of R135 for the word at a position, with the two words before it. -/
def badBody (w : W32) (prev prev2 : Option Bool) (last : Bool) : Bool :=
  let afterRep := prev == some true || (prev == some false && prev2 == some true)
  isHeader w ||
    match prefixMajor w with
    | some r => last || (prev.isSome && !(prev == some true && !r))
    | none => (endsClause w && !last) || (afterRep && refusesRep w)

/-- The first body word that breaks R135, by position; `before` holds the words before it, nearest first. -/
def firstBad : List W32 → List (Option Bool) → Nat → Option Nat
  | [], _, _ => none
  | w :: ws, before, pos =>
    if badBody w (before.headD none) ((before.drop 1).headD none) ws.isEmpty then some pos
    else firstBad ws (prefixMajor w :: before) (pos + 1)

/-- Whether the set fields of a header match a number of flagged operations. -/
def flagsFit (header : W32) (n : Nat) : Bool :=
  let a := field header.toNat 12 4
  let b := field header.toNat 8 4
  match n with
  | 0 => a == 15 && b == 15
  | 1 => a != 15 && b == 15
  | 2 => a != 15 && b != 15 && a != b
  | _ => false

/-- Item 3 of R135: the set fields match the flagged operations. -/
def flagsMatch (header : W32) (body : List W32) : Bool := flagsFit header (body.filter flaggedWord).length

/-- The position of the first offending word of a whole clause; `none` where it is well formed (Table 19.8). -/
def clauseFault : List W32 → Option Nat
  | [] => some 0
  | h :: body => if goodHeader h then (if flagsMatch h body then firstBad body [] 1 else some 0) else some 0

/-- The same of a clause whose first body words alone are known, with n to come: what breaks R135 whatever they are. -/
def partFault (h : W32) (ws : List W32) (n : Nat) : Option Nat :=
  if (List.range (n + 1)).any fun k => flagsFit h ((ws.filter flaggedWord).length + k) then
    (firstBad (ws ++ [0#32]) [] 1).filter fun k => decide (k ≤ ws.length)
  else some 0

/-! ## Fetch (R165, R261, R328) -/

/-- What the fetch of code comes to. -/
inductive Fetch where
  | words (ws : List W32) (pas : List Nat)
  | trap (t : Trap)
  | miss (va : W64)
  | remote (pa : Nat)
  | poison (pa : Nat)
  deriving DecidableEq, Repr

/-- The word at a physical address: from the instruction cache, if it keeps it, or from its home; `none` where the
sector is poisoned. -/
def State.codeAt (s : State) (core pa : Nat) : Option W32 :=
  match if Config.icacheKeeps s.tick pa then (s.core core).icache.find? fun e => e.1 == pa else none with
  | some e => some e.2
  | none => if s.poisonedAt pa 4 then none else some (BitVec.ofNat 32 (s.homeRead pa 4))

/-- Fetch one word. -/
def State.fetchAt (s : State) (core ctx : Nat) (va : W64) : Fetch :=
  match s.reach core ctx { va, size := 4, need := .fetch, code := 3 } with
  | .trap t => .trap t
  | .miss => .miss va
  | .ok pa _ =>
    if isRemote pa then
      match s.unitBytes? pa 4 with
      | some bs => .words [BitVec.ofNat 32 (natOfBytes bs)] [pa]
      | none => .remote pa
    else
      match s.codeAt core pa with
      | some w => .words [w] [pa]
      | none => .poison (pa / 64 * 64)

/-- Fetch n words from an address on: those that come, and what stops the fetch short of all. -/
def State.fetchRun (s : State) (core ctx : Nat) : Nat → W64 → List W32 × Fetch
  | 0, _ => ([], .words [] [])
  | n + 1, va =>
    match s.fetchAt core ctx va with
    | .words ws ps =>
      let q := s.fetchRun core ctx n (va + 4#64)
      (ws ++ q.1, match q.2 with
        | .words ws' ps' => .words (ws ++ ws') (ps ++ ps')
        | f => f)
    | f => ([], f)

/-- Words that a fetch has read stand in the instruction cache of 16,384 words. -/
def Core.fillCode (c : Core) (ws : List (Nat × W32)) : Core :=
  { c with icache := (ws ++ c.icache.filter fun e => !ws.any fun w => w.1 == e.1).take 16384 }

/-! ## Groups of runnable threads (R25, R300, R301) -/

/-- Threads that may start together: at a header, or at a body word of a clause. -/
structure Group where
  lanes : List Nat
  place : W64
  resume : Option Resume
  /-- a thread in handler mode, which is a group by itself (R300) -/
  handler : Bool
  deriving DecidableEq, Repr

/-- Whether a thread is runnable (R25). -/
def Thread.runnable (t : Thread) : Bool := !t.exited && t.blocked == .none

/-- Whether a lane is in a path in flight. -/
def Gang.inFlight (g : Gang) (l : Nat) : Bool := g.paths.any fun p => p.lanes.getLsbD l

/-- Whether two threads start together: one place reached by the same means, and outside handler mode. Threads that
resume at a REP, as `rep` names such places, do so at one repetition. -/
def sameGroup (rep : W64 → Bool) (a b : Thread) : Bool :=
  a.place == b.place && a.resume == b.resume && !a.trapDepth && !b.trapDepth
    && (a.resume.isNone || !rep a.place || field a.repState.toNat 0 7 == field b.repState.toNat 0 7)

/-- Put a lane into the groups. -/
def addLane (rep : W64 → Bool) (g : Gang) (gs : List Group) (l : Nat) : List Group :=
  let t := g.threads.getD l Thread.blank
  let joins := fun (x : Group) => sameGroup rep (g.threads.getD (x.lanes.headD 0) Thread.blank) t
  if gs.any joins then gs.map fun x => if joins x then { x with lanes := x.lanes ++ [l] } else x
  else gs ++ [{ lanes := [l], place := t.place, resume := t.resume, handler := t.trapDepth }]

/-- The groups of a gang, lowest PC first. -/
def Gang.groups (g : Gang) (rep : W64 → Bool) : List Group :=
  let ls := (List.range 32).filter fun l =>
    (g.threads.getD l { Thread.blank with exited := true }).runnable && !g.inFlight l
  sortBy (fun a b => decide (a.place < b.place)) (ls.foldl (addLane rep g) [])

/-- Whether a REP stands at an address. -/
def State.repAt (s : State) (core ctx : Nat) (va : W64) : Bool :=
  match s.fetchAt core ctx va with
  | .words [w] _ => prefixMajor w == some true
  | _ => false

/-! ## What a group would start -/

/-- A group with what its fetch comes to. -/
inductive Prospect where
  | start (header : W64) (ws : List W32) (pas : List Nat) (pos : Nat)
  | trap (site : TrapSite) (t : Trap)
  | flags (wanted : BitVec 12)
  | miss (va : W64)
  | remote (pa : Nat)
  | poison (pa : Nat)
  deriving DecidableEq, Repr

/-- The flags that the flagged operations from a position on would set. -/
def laterFlags (ws : List W32) (pos : Nat) : BitVec 12 :=
  let marks := (ws.drop 1).mapIdx fun k w => (k + 1, flaggedWord w)
  let ops := (marks.filter fun x => x.2).map Prod.fst
  (ops.mapIdx fun n p => if p ≥ pos then
      (match flagOfHeader (ws.headD 0#32) n with
       | some f => BitVec.ofNat 12 (1 <<< f)
       | none => 0#12) else 0#12).foldl (· ||| ·) 0#12

/-- CLAUSE at the offending word of a clause, by its position (R135, R299). -/
def clauseTrap (header : W64) (ws : List W32) (k : Nat) : Prospect :=
  let back := fun (n : Nat) => (prefixMajor (ws.getD n 0#32)).isSome && n != 0
  let first := if k ≥ 2 && back (k - 1) then (if k ≥ 3 && back (k - 2) then k - 2 else k - 1) else k
  .trap { pc := header + BitVec.ofNat 64 (4 * first), word := k, header }
    { cause := Cause.clause, info := (ws.headD 0#32).setWidth 64 }

/-- A clause as fetched: its check, and the flags it waits for (R135, R137, R301). -/
def startOf (flags : BitVec 12) (header : W64) (ws : List W32) (pas : List Nat) (pos : Nat) : Prospect :=
  match clauseFault ws with
  | some k => clauseTrap header ws k
  | none =>
    let wanted := headerWait (ws.headD 0#32) ||| laterFlags ws pos
    if flags &&& wanted = 0#12 then .start header ws pas pos else .flags wanted

/-- What a fetch short of a whole clause leads to. A word whose fetch traps does so before any word of the clause
issues, and so at the word at which the threads would start, with TRAPINFO naming the word (R299; DEDUCED, log 29). -/
def Fetch.otherwise (f : Fetch) (header : W64) (pos : Nat) : Prospect :=
  match f with
  | .words _ _ => .flags 0#12
  | .trap t => .trap { pc := header + BitVec.ofNat 64 (4 * pos), word := pos, header } t
  | .miss va => .miss va
  | .remote pa => .remote pa
  | .poison pa => .poison pa

/-- The clause at a header. A body word that cannot be fetched counts only where no word before it offends. -/
def State.clauseAt (s : State) (core ctx : Nat) (flags : BitVec 12) (header : W64) (pos : Nat) : Prospect :=
  match s.fetchAt core ctx header with
  | .words [h] ps =>
    if goodHeader h then
      match s.fetchRun core ctx (headerLength h) (header + 4#64) with
      | (_, .words ws ps') => startOf flags header (h :: ws) (ps ++ ps') pos
      | (ws, f) =>
        match partFault h ws (headerLength h - ws.length) with
        | some k => clauseTrap header (h :: ws) k
        | none => f.otherwise header pos
    else startOf flags header [h] ps pos
  | f => f.otherwise header pos

/-- What a group would start: a clause at its PC, or where the group resumes at a body word the rest of that clause. An
ERET to an address that is no word's raises CLAUSE there; which word is found there is not stated (R301). -/
def State.examine (s : State) (t : Team) (g : Gang) (x : Group) : Prospect :=
  match x.resume with
  | none => s.clauseAt t.core t.ctx g.flags x.place 0
  | some r =>
    if unaddressed r.header then
      .trap { pc := r.word, word := 0, header := r.header }
        { cause := Cause.clause, info := (Config.wordFound s.tick r.word).setWidth 64 }
    else s.clauseAt t.core t.ctx g.flags r.header ((r.word - r.header).toNat / 4)

/-- A thread as a vote finds it: the wait of a repetition has ended, and so has that repetition (R141); and a place that
is no word of the clause at its header is a PC like any other (R301). -/
def State.voter (s : State) (core ctx : Nat) (th : Thread) : Thread :=
  if !th.runnable then th
  else
    let th := { th with repState := th.repNext.getD th.repState, repNext := none }
    match th.resume with
    | none => th
    | some r =>
      let plain := { th with pc := r.word, resume := none }
      match s.fetchAt core ctx r.header with
      | .words [h] _ => if goodHeader h && decide ((r.word - r.header).toNat ≤ 4 * headerLength h) then th else plain
      | .trap t => if t.cause == Cause.clause then plain else th
      | _ => th

/-- The threads of a gang as a vote finds them. -/
def State.voters (s : State) (t : Team) (gang : Nat) : State :=
  s.modGang t.uid gang fun g => { g with threads := g.threads.map (s.voter t.core t.ctx) }

/-- Whether a group waits for its code. -/
def Prospect.fetches : Prospect → Bool
  | .miss _ | .remote _ => true
  | _ => false

/-- Whether a group can be chosen. -/
def Prospect.startable : Prospect → Bool
  | .start .. | .trap .. | .poison _ => true
  | _ => false

/-! ## Choosing (R26 to R28) -/

/-- A lane of a group with what it would start. -/
structure Candidate where
  group : Group
  prospect : Prospect
  age : Nat
  deriving DecidableEq, Repr

/-- Those whose age has reached 256 first, lowest PC first, then the others, lowest PC first. -/
def ageOrder (cs : List Candidate) : List Candidate :=
  (cs.filter fun c => decide (c.age ≥ 256)) ++ cs.filter fun c => decide (c.age < 256)

/-- The age of an entry of the PC table. -/
def Gang.ageOf (g : Gang) (pc : W64) : Nat := ((g.ages.find? fun a => a.1 == pc).map Prod.snd).getD 0

/-- The PC table after a vote: chosen entries at 0, the others that hold runnable threads one older; entries that no
live thread holds leave it. An entry whose runnable threads are all in a path in flight does not age: R26 lets only the
others vote, where R27 says every entry that holds a runnable thread (DESIGN CHOICE, log 56). -/
def Gang.ageTable (g : Gang) (voted chosen : List W64) : Gang :=
  { g with ages := g.places.filterMap fun pc =>
      if chosen.contains pc then none
      else if voted.contains pc then some (pc, g.ageOf pc + 1)
      else if g.ageOf pc == 0 then none else some (pc, g.ageOf pc) }

/-- The threads' ages after a vote: in serial mode, and of threads in handler mode, each a group by itself (log 56). -/
def Gang.ageLanes (g : Gang) (voted chosen : List Nat) : Gang :=
  { g with laneAges := g.laneAges.mapIdx fun l a =>
      if chosen.contains l then 0 else if voted.contains l then a + 1 else a }

/-- Start a path. -/
def State.startPath (s : State) (team gang : Nat) (core : Nat) (x : Group) (header : W64) (ws : List W32) (pas : List Nat)
    (pos : Nat) : State :=
  let p : Path :=
    { uid := s.nextUid, lanes := maskOf x.lanes, header, words := ws, pos, guard := none, rep := none, prefixPos := none
      prefixes := 0, flagged := (((ws.take pos).drop 1).filter flaggedWord).length, taken := 0#32, start := pos
      busyFlag := none, yielded := false, icinv := false, grants := [], walks := [], fetched := [], unmapped := [], held := false }
  let s := (s.modGang team gang fun g =>
    let g := g.mapLanes x.lanes fun _ t => if pos == 0 then t.beginPath.newClause else t.beginPath
    { g with paths := g.paths ++ [p] }).bump
  let s := s.modCore core fun c => c.fillCode ((pas.zip ws).filter fun w => !isRemote w.1)
  (pas.filter isRemote).foldl (fun s pa => s.forgetUnit pa 4) s

/-- A chosen group starts its path, or its threads take the trap that its clause raises. -/
def State.take (s : State) (team gang core : Nat) (c : Candidate) : State :=
  match c.prospect with
  | .start h ws pas pos => s.startPath team gang core c.group h ws pas pos
  | .trap site t => c.group.lanes.foldl (fun s l => s.trapEntry team gang l site t (maskOf c.group.lanes)) s
  | .poison pa => s.consumePoison team gang (c.group.lanes.headD 0) pa c.group.place
  | _ => s

/-- The walks of a gang's fetches: one for each page that groups miss on and no walk is under way for. -/
def State.fetchWalks (s : State) (t : Team) (gang : Nat) (cs : List Candidate) : State :=
  cs.foldl (fun s c =>
    match c.prospect with
    | .miss va =>
      if s.walks.any fun w => w.team == t.uid && w.gang == gang && w.path.isNone && w.va.toNat / 2 ^ 16 == va.toNat / 2 ^ 16 then s
      else
        ({ s with walks := s.walks ++
            [{ uid := s.nextUid, ctx := t.ctx, core := t.core, va, access := 3, team := t.uid, gang, path := none, command := none, quiet := false,
               lanes := c.group.lanes.map fun l => (l, va), parked := false }] } : State).bump
    | .remote pa =>
      if s.unitAsks pa then s
      else s.sendRead pa 4 fun r => { r with unit := true, fetcher := some t.uid }
    | _ => s) s

/-- The candidates of a vote. -/
def State.candidates (s : State) (t : Team) (g : Gang) : List Candidate :=
  (g.groups (s.repAt t.core t.ctx)).map fun x =>
    { group := x, prospect := s.examine t g x
      age := if x.handler then g.laneAges.getD (x.lanes.headD 0) 0 else g.ageOf x.place }

/-- In serial mode each thread is a candidate of its own, lowest PC and then lowest lane first. -/
def Gang.serialCandidates (g : Gang) (cs : List Candidate) : List Candidate :=
  sortBy (fun a b => decide (a.group.place < b.group.place)
      || (a.group.place == b.group.place && decide (a.group.lanes.headD 0 < b.group.lanes.headD 0)))
    (cs.flatMap fun c => c.group.lanes.map fun l =>
      { c with group := { c.group with lanes := [l] }, age := g.laneAges.getD l 0 })

/-- A vote of a gang that is not in serial mode. -/
def State.plainVote (s : State) (t : Team) (gang : Nat) (g : Gang) (cs : List Candidate) : State :=
  let chosen := (ageOrder (cs.filter fun c => c.prospect.startable)).take (2 - g.paths.length)
  let places := fun (cs : List Candidate) => (cs.filter fun c => !c.group.handler).map fun c => c.group.place
  let lanes := fun (cs : List Candidate) => (cs.filter fun c => c.group.handler).flatMap fun c => c.group.lanes
  let s := s.modGang t.uid gang fun g => (g.ageTable (places cs) (places chosen)).ageLanes (lanes cs) (lanes chosen)
  chosen.foldl (fun s c => s.take t.uid gang t.core c) s

/-- A vote in serial mode chooses one thread. -/
def State.serialVote (s : State) (t : Team) (gang : Nat) (g : Gang) (cs : List Candidate) : State :=
  let all := g.serialCandidates cs
  let chosen := (ageOrder (all.filter fun c => c.prospect.startable)).head?
  let s := s.modGang t.uid gang fun g =>
    g.ageLanes (all.flatMap fun c => c.group.lanes) ((chosen.map fun c => c.group.lanes).getD [])
  match chosen with
  | some c => s.take t.uid gang t.core c
  | none => s

/-- A vote (R26 to R28). -/
def State.vote (s : State) (t : Team) (gang : Nat) (g : Gang) (cs : List Candidate) : State :=
  let s := s.fetchWalks t gang cs
  if g.serial && decide (g.places.length > 8) then s.serialVote t gang g cs
  else (s.modGang t.uid gang fun g => { g with serial := false }).plainVote t gang g cs

/-! ## Active and pending (R47, Table 2.8) -/

/-- The least active slot of a core that no gang holds. -/
def State.freeActive (s : State) (core : Nat) : Option Nat :=
  let used := (s.teams.filter fun t => t.core == core).flatMap fun t => t.gangs.filterMap Gang.activeSlot
  (List.range 8).find? fun k => !used.contains k

/-- A gang that is ready takes a free active slot, unless another has waited for one, or waits (R47). -/
def State.makeReady (s : State) (team gang core : Nat) : State :=
  match (s.freeActive core).filter fun _ => (s.oldestReady core).all (· == (team, gang)) with
  | some k => s.modGang team gang fun g => { g with residency := .active, activeSlot := some k }
  | none => s.modGang team gang fun g => { g with residency := .pendingReady }

/-- Whether a gang may hold a vote now. -/
def Gang.mayVote (g : Gang) : Bool := decide (g.paths.length < 2) && !(g.serial && !g.paths.isEmpty)

/-- Whether an operation has left the core: a load, an atomic or a commit that has its answer yet to come, and a CLAIM or
a spawn; a matrix operation stays in the core (R47). -/
def Op.hasLeft (o : Op) : Bool :=
  match o.kind with
  | .load r => r.bound.isNone
  | .returned .. | .mma _ | .accrd _ => false
  | _ => true

/-- Whether a clause waits on a flag of an operation that has left the core. -/
def State.waitsAfar (s : State) (team gang : Nat) (g : Gang) (p : Prospect) : Bool :=
  match p with
  | .flags wanted =>
    (List.range 12).any fun f =>
      (g.flags &&& wanted).getLsbD f && s.ops.any fun o => o.holds team gang f && o.hasLeft
  | _ => false

/-- Whether an active gang gives up its slot: nothing of it can run but what waits for operations that have left the core
or, under DET, for other gangs (log 25), or its team drains and it has come to where it stops (R50); and another gang is
ready (Table 2.8). -/
def State.leavesSlot (s : State) (t : Team) (gang : Nat) (g : Gang) (cs : List Candidate) : Bool :=
  (s.oldestReady t.core).isSome &&
    if t.state == .draining then g.paths.all Path.pausable
    else g.paths.all (s.standsBehind t gang g) && cs.all fun c => s.waitsAfar t.uid gang g c.prospect

/-- Whether a vote does more than age the PC table: it starts a path or a trap, or moves the gang (R26, R47). -/
def State.voteActs (s : State) (t : Team) (gang : Nat) (g : Gang) (cs : List Candidate) : Bool :=
  let starts := t.runs && cs.any fun c => c.prospect.startable
  match g.residency with
  | .active => s.leavesSlot t gang g cs || (g.mayVote && starts)
  | .pendingWait =>
    t.usesSlot g && (starts || g.paths.any fun p => !s.standsBehind t gang g p)
  | .pendingReady => (s.freeActive t.core).isSome && s.oldestReady t.core == some (t.uid, gang)
  | .done => false

/-- The vote of one gang, with its threads as it finds them. -/
def State.gangVote (s : State) (t : Team) (gang : Nat) (g : Gang) : Host.Outcome State Fault Refusal :=
  let cs := if t.runs then s.candidates t g else []
  match g.residency with
  | .active =>
    if s.leavesSlot t gang g cs then .next (s.vacate t.uid gang .pendingWait)
    else if cs.isEmpty || !g.mayVote then .fault .notDue
    else .next (s.vote t gang g cs)
  | .pendingWait | .pendingReady =>
    if s.voteActs t gang g cs then .next (s.makeReady t.uid gang t.core)
    else if g.residency == .pendingWait && cs.any fun c => c.prospect.fetches then .next (s.fetchWalks t gang cs)
    else .fault .notDue
  | .done => .fault .notDue

/-- GANG_VOTE. -/
def execGangVote (team gang : Nat) (st : State) : Host.Outcome State Fault Refusal :=
  match st.team? team with
  | some t =>
    let s := st.voters t gang
    match s.gang? team gang with
    | some g => if t.runs || t.state == .draining then s.gangVote t gang g else .fault .notDue
    | none => .fault .notDue
  | none => .fault .notDue

end Sys2Proof.Machine
end

