-- ==== Sys2Proof/Machine/Regroup.lean ====
section
/-! DEFINITION. REGROUP: the regroup unit sorts the live threads of a team and places them anew (R32, R160, R311). -/

namespace Sys2Proof.Machine

/-- A live thread as the regroup unit holds it: its old place and itself. -/
structure Regrouped where
  gang : Nat
  lane : Nat
  thread : Thread
  deriving DecidableEq, Repr

/-- The key and the window count of a thread that waits at a REWARP. -/
def Thread.rewarpAsk (t : Thread) : BitVec 16 × Nat :=
  match t.blocked with
  | .rewarp key n .. => (key, n)
  | _ => (0#16, 32)

/-- The live threads by key, ties by old gang and then old lane. -/
def Team.regroupOrder (t : Team) : List Regrouped :=
  sortBy (fun a b => decide (a.thread.rewarpAsk.1 < b.thread.rewarpAsk.1))
    (t.liveThreads.map fun x => { gang := x.1, lane := x.2.1, thread := x.2.2 })

/-- The registers of a thread in its new place: those of its window are carried, those above read as zero, and what
those below hold is not stated. -/
def Thread.carry (t : Thread) (tick place : Nat) : Thread :=
  { t with
    x := t.x.mapIdx fun k v =>
      if k < t.winBase then Config.regroupRegister tick place k
      else if k < t.winBase + t.rewarpAsk.2 then v
      else 0#64
    blocked := .none
    resume := none }

/-- A place beyond the last live thread. -/
def vacantThread (alloc : Nat) : Thread :=
  { Thread.blank with x := List.replicate alloc 0#64, exited := true }

/-- Where the k-th of the sorted threads goes. -/
def placeOf (k : Nat) : Nat × Nat := (k / 32, k % 32)

/-- The new place of an old one; a place of a dead thread names no lane. -/
def newPlaceOf (order : List Regrouped) (gang lane : Nat) : Nat × Nat :=
  match order.findIdx? fun r => r.gang == gang && r.lane == lane with
  | some k => placeOf k
  | none => (gang, lane + 32)

/-- The members of a gang's transaction that stay in the gang, by their new lanes. -/
def keptMembers (order : List Regrouped) (gang : Nat) (members : W32) : W32 :=
  maskOf ((lanesOf members).filterMap fun l =>
    if (newPlaceOf order gang l).1 == gang then some (newPlaceOf order gang l).2 else none)

/-- A gang with its new threads: masks zero, ages reset, an open transaction doomed. -/
def Gang.regrouped (g : Gang) (order : List Regrouped) (gang : Nat) (threads : List Thread) : Gang :=
  let g := g.doom 8
  ({ g with
      threads, masks := List.replicate 12 0#32, ages := [], laneAges := List.replicate 32 0, serial := false
      tx := g.tx.map fun x => { x with members := keptMembers order gang x.members } } : Gang).checkSerial

/-- The threads of a gang after the regroup. -/
def regroupThreads (order : List Regrouped) (tick alloc gang : Nat) : List Thread :=
  (List.range 32).map fun l =>
    match order[32 * gang + l]? with
    | some r => r.thread.carry tick (32 * gang + l)
    | none => vacantThread alloc

/-- Whether the regroup of a team is due: every live thread waits at a REWARP, its flagged operations have drained, and
no fence's release is under way in a gang that a thread would leave. -/
def State.regroupDue (s : State) (t : Team) : Bool :=
  t.runs && !t.liveThreads.isEmpty
    && (t.liveThreads.all fun x => x.2.2.atRewarp && !x.2.2.relHold)
    && (t.gangs.all fun g => g.paths.isEmpty) && !s.ops.any fun o => o.team == t.uid

/-- A store still in the store path stays its thread's. -/
def StoreOp.regrouped (x : StoreOp) (team : Nat) (order : List Regrouped) : StoreOp :=
  if x.team == team && x.command.isNone then
    let p := newPlaceOf order x.gang x.lane
    { x with gang := p.1, lane := p.2 }
  else x

/-- The standing of a gang after the regroup: one that has lost its threads is done, one that was done and has threads
again is ready (Table 2.8). -/
def State.standAnew (s : State) (t : Team) (gang : Nat) : State :=
  match s.gang? t.uid gang with
  | none => s
  | some g =>
    if g.allExited then (if g.residency == .done then s else s.vacate t.uid gang .done)
    else if g.residency == .done then s.makeReady t.uid gang t.core
    else s

/-- REGROUP. -/
def execRegroup (team : Nat) (st : State) : Host.Outcome State Fault Refusal :=
  match st.team? team with
  | none => .fault .notDue
  | some t =>
    if !st.regroupDue t then .fault .notDue
    else
      let order := t.regroupOrder
      let s := st.emptyLatchOf team 0
      let s := s.modTeam team fun t =>
        { t with gangs := t.gangs.mapIdx fun k g =>
            g.regrouped order k (regroupThreads order st.tick (8 * t.regs8) k) }
      let s := s.modCore t.core fun c => { c with stores := c.stores.map fun x => x.regrouped team order }
      let s := { s with walks := s.walks.map fun w => if w.team == team then { w with lanes := [] } else w }
      .next ((List.range t.gangs.length).foldl (fun s g => s.standAnew t g) s)

end Sys2Proof.Machine
end

