-- ==== Sys2Proof/Machine/Admission.lean ====
section
/-! DEFINITION. TEAM_ADMISSION and ZEROING_COMPLETE (R37, R41 to R46, R56), and the auditor's selection of a team
(R337). -/

namespace Sys2Proof.Machine

/-! ## Places on a core -/

/-- Pick n of some things, as the device chooses. -/
def pickSome (tick : Nat) : Nat → List Nat → List Nat
  | 0, _ => []
  | n + 1, xs =>
    match xs[Config.placement tick n % xs.length]? with
    | some x => x :: pickSome tick n (xs.filter fun y => y != x)
    | none => []

/-- The first barrier id of a team's range. -/
def State.pickBarriers (s : State) (core n : Nat) : Nat :=
  if n = 0 then 0
  else
    let bs := s.freeBarriers core n
    bs.getD (Config.placement s.tick 64 % bs.length) 0

/-- The engine contexts of a team. -/
def State.pickContexts (s : State) (core n : Nat) : BitVec 16 :=
  BitVec.ofNat 16 (((pickSome s.tick n (s.freeContexts core)).map fun k => 2 ^ k).sum)

/-! ## Initial state (R37, Table 3.2) -/

/-- What y0 to y3 receive. -/
def Desc.argument (d : Desc) (k : Nat) : W64 := if d.argPtr then (if k = 0 then d.arg 0 else 0#64) else d.arg k

/-- A thread at admission. -/
def freshThread (l : Launch) (d : Desc) (block : Nat) (gang lane : Nat) : Thread :=
  let priv : W64 := BitVec.ofNat 64 (block + 256 * d.privUnits * (32 * gang + lane))
  { Thread.blank with
    pc := d.entry
    x := List.replicate (8 * d.regs8) 0#64
    y := (List.range 16).map fun k =>
      if k < 4 then d.argument k else if k = 15 then priv + BitVec.ofNat 64 (256 * d.privUnits) else 0#64
    privBase := priv
    recording := l.traced }

/-- A gang at admission, its place among the active not yet given. -/
def freshGang (l : Launch) (d : Desc) (block clock : Nat) (gang slot age : Nat) : Gang :=
  { threads := (List.range 32).map fun lane => freshThread l d block gang lane
    masks := List.replicate 12 0#32, flags := 0#12, paths := [], ages := [], serial := false
    laneAges := List.replicate 32 0, unacked := 0, clock, filter := [], tx := none, lateTx := [], slot
    residency := .pendingReady, activeSlot := none, age }

/-- A team at admission. -/
def State.freshTeam (s : State) (l : Launch) (k : Task) (core block : Nat) (state : TeamState) : Team :=
  let d : Desc := k.desc
  let slots := pickSome s.tick d.gangs (s.freeSlots core)
  { uid := s.nextUid, task := k.uid, launch := l.uid, ctx := l.ctx, core, state, regs8 := d.regs8
    privUnits := d.privUnits, scratchUnits := d.scratchUnits, accTiles := d.accTiles
    privBlock := BitVec.ofNat 64 block, scratch := Memory.empty, logs := [], acc := Memory.empty, follower := Memory.empty
    barriers := List.replicate d.barriers { expected := 0, arrivals := 0, episode := 0, mark := 0 }
    barBase := s.pickBarriers core d.barriers, engMap := s.pickContexts core d.engCtx
    timelines := List.replicate d.engCtx { issued := 0, counter := 0 }, queueRegs := List.replicate 4 0#64
    blocks := List.replicate 8 none, commands := []
    gangs := (List.range d.gangs).map fun g => freshGang l d block k.startClock g (slots.getD g 0) s.nextUid
    kill := none, drainWanted := false, saveOrder := 0, saveArea := 0#64, ineligible := false, audit := none }

/-! ## The auditor's selection (R337) -/

/-- Whether an audit holds the log of a core. -/
def State.auditHeld (s : State) (core : Nat) : Bool :=
  (s.audits.any fun a => a.core == core)
    || s.teams.any fun t => t.core == core && (t.audit.map fun p => !p.dropped).getD false

/-- Whether the auditor of a core selects the team with a number. -/
def auditSelects (ctl : W64) (core number : Nat) : Bool :=
  ctl.getLsbD 7 &&
    field (detHash (BitVec.ofNat 64 core) (BitVec.ofNat 64 number)).toNat 0 (field ctl.toNat 0 5) == 0

/-- A core has admitted a team: the auditor numbers it, and may select it. -/
def State.auditAdmit (s : State) (core team : Nat) : State :=
  let c := s.core core
  if !c.auditCtl.getLsbD 7 then s.modTeam team Team.excuse
  else
    let n := c.auditNumber
    let chosen := auditSelects c.auditCtl core n && !s.auditHeld core
    (s.modCore core fun c => { c with auditNumber := n + 1 }).modTeam team fun t =>
      if chosen then { t with audit := some { number := n, log := [], dropped := false } } else t

/-! ## Admission -/

/-- The gangs of a new team take active slots as far as there are free ones (Table 2.8). -/
def State.seatGangs (s : State) (team core n : Nat) : State :=
  (List.range n).foldl (fun s g =>
    match s.gang? team g with
    | some x => if x.residency == .pendingReady then s.makeReady team g core else s
    | none => s) s

/-- A core admits a waiting task. -/
def State.admitOne (s : State) (l : Launch) (k : Task) (core block : Nat) : State :=
  let t := s.freshTeam l k core block .zeroing
  let s := ({ s with teams := s.teams ++ [t] } : State).bump
  ((s.modTask k.uid fun x => { x with state := .resident }).seatGangs t.uid core t.gangs.length).auditAdmit core t.uid

/-- Where a waiting task could be admitted now. -/
def State.placeTask (s : State) (k : Task) : Option (Launch × Nat × Nat) :=
  (s.launch? k.launch).bind fun l =>
    (s.context? l.ctx).bind fun c =>
      (s.placeTeam l c k (Desc.ask k.desc)).bind fun core =>
        (s.placeBlock c k.uid (Desc.privBytes k.desc)).map fun b => (l, core, b)

/-- Whether a SAVED team may be restored: its context is not held (R44). -/
def State.restorable (s : State) (t : Team) : Bool :=
  t.state == .saved && !((s.context? t.ctx).map Context.held).getD false

/-- Where a SAVED team could be restored now. -/
def State.placeSaved (s : State) (t : Team) : Option Nat :=
  (s.launch? t.launch).bind fun l =>
    (s.context? t.ctx).bind fun c => (s.task? t.task).bind fun k => s.placeTeam l c k t.ask

/-- Restore comes ahead of the tasks of the context that wait (R44). -/
def State.restoreFirst (s : State) (ctx : Nat) : Bool :=
  s.teams.any fun t => t.ctx == ctx && s.restorable t && (s.placeSaved t).isSome

/-- The waiting tasks that come before a task: under DET those of lower ordinal that wait for its core (R46),
otherwise those that arrived earlier in its die's queue and fit (R45). -/
def State.admittedBefore (s : State) (l : Launch) (k : Task) : Bool :=
  s.tasks.any fun o =>
    o.state == .waiting && o.uid != k.uid &&
      if l.det && k.avoid.isEmpty then
        o.launch == k.launch && o.avoid.isEmpty && posLt o.position k.position
          && s.detCore l o.posKey == s.detCore l k.posKey
      else
        decide (o.arrival < k.arrival) && (o.parent.isNone == k.parent.isNone)
          && (k.parent.isNone || o.originCore / 72 == k.originCore / 72) && (s.placeTask o).isSome
          && !((s.launch? o.launch).map fun m => m.coop && o.parent.isNone).getD false

/-- Admit tasks one after another, if every one finds its place. -/
def State.admitAll (s : State) : List Task → Option State
  | [] => some s
  | k :: ks =>
    match s.placeTask k with
    | none => none
    | some (l, core, b) => (s.admitOne l k core b).admitAll ks

/-- The root tasks of a COOP launch while they wait to be admitted together (R56). -/
def State.coopRoots (s : State) (l : Launch) (k : Task) : List Task :=
  if l.coop && k.parent.isNone && !k.reexec then
    s.tasks.filter fun o => o.launch == l.uid && o.parent.isNone && o.state == .waiting
  else [k]

/-- TEAM_ADMISSION. -/
def execTeamAdmission (task : Nat) (st : State) : Host.Outcome State Fault Refusal :=
  match (st.task? task).bind fun k => (st.launch? k.launch).map fun l => (k, l) with
  | none => .fault .notDue
  | some (k, l) =>
    if k.state != .waiting || l.state == .queued || st.restoreFirst l.ctx || st.admittedBefore l k then .fault .notDue
    else
      match st.admitAll (st.coopRoots l k) with
      | some s => .next s
      | none => .fault .notDue

/-- ZEROING_COMPLETE: the team starts running, which acquires (R95, Table 4.3). -/
def execZeroingComplete (team : Nat) (st : State) : Host.Outcome State Fault Refusal :=
  match st.team? team with
  | none => .fault .notDue
  | some t =>
    if t.state != .zeroing then .fault .notDue
    else .next ((st.modTeam team fun t =>
      { t with state := if t.drainWanted then .draining else .running, drainWanted := false }).invalidateL1 t.core)

end Sys2Proof.Machine
end

