-- ==== Sys2Proof/Machine/Ending.lean ====
section
/-! DEFINITION. TASK_END (R39, R49, R337) and the retirement of launches (R39, R40, R105, R131, R305, R334). -/

namespace Sys2Proof.Machine

/-! ## A team leaves its core -/

/-- Active slots that a team's gangs held go to gangs that are ready. -/
def State.freeActives (s : State) (core : Nat) (t : Team) : State :=
  (t.gangs.filterMap Gang.activeSlot).foldl (fun s k => (s.emptyLatch core (some k)).giveSlot core k) s

/-- A team has gone: its gang slots, pool units, barriers, engine contexts, follower units and private block are
free. A completion record that its PROP asked for is still written (R252). -/
def State.removeTeam (s : State) (t : Team) : State :=
  let s := { s with
    teams := s.teams.filter fun x => x.uid != t.uid
    ops := s.ops.filter fun o => o.team != t.uid
    walks := s.walks.filter fun w => w.team != t.uid
    props := s.props.filter fun p => p.team != t.uid || p.stays }
  s.freeActives t.core t

/-- Whether nothing of a team is under way: no operation, store or engine command. -/
def State.teamIdle (s : State) (t : Team) : Bool :=
  (t.gangs.all fun g => g.unacked == 0) && (!s.ops.any fun o => o.team == t.uid)
    && (t.commands.all fun c => c.state == .done || c.state == .stopped)
    && !(s.core t.core).stores.any fun x => x.team == t.uid

/-! ## Audits (R337, R339) -/

/-- The audit that a task's end starts, if its selection stands. -/
def State.auditOf (s : State) (t : Team) (k : Task) : Option Audit :=
  match t.audit with
  | some p =>
    if t.ineligible || p.dropped || !(s.core t.core).auditCtl.getLsbD 7 then none
    else some
      { uid := s.nextUid, task := k.uid, launch := k.launch, core := t.core, block := t.privBlock, digest := k.digest
        weight := k.weight, pooled := k.pooled, replay := none, replayDigest := none, third := false, log := p.log
        ran := k, left := [], mismatch := false, lost := false }
  | none => none

/-- A launch fails with DIGEST (R334, R339): its record is written, and with TRACE and DET its trace fails too. -/
def State.failDigest (s : State) (l : Launch) (info addr : W64) : State :=
  let s := s.writeRecord { McRecord.blank 2 3 Cause.digest with info, addr, launchId := l.record, ctx := l.ctx }
  let s := if l.traced && l.det then s.failTrace l.ctx Cause.digest 0#64 true else s
  s.modLaunch l.uid fun x => x.failFinally Cause.digest

/-- The end of an audit: the weight that it held back is returned. -/
def State.endAudit (s : State) (a : Audit) : State :=
  { s.creditWeight a.launch a.weight a.pooled with audits := s.audits.filter fun x => x.uid != a.uid }

/-- A third run has ended: its digest decides (R339). -/
def State.decideAudit (s : State) (a : Audit) (digest : W64) : State :=
  let s := (s.endAudit a).modLaunch a.launch fun l => { l with digestSum := l.digestSum - a.digest + digest }
  match s.launch? a.launch with
  | none => s
  | some l =>
    if digest == a.digest then
      s.writeRecord { McRecord.blank 4 0 Cause.digest with
        info := a.replayDigest.getD 0#64, launchId := l.record, ctx := l.ctx
        core := (a.replay.map Prod.snd).getD 0 }
    else if some digest == a.replayDigest then s
    else s.failDigest l digest 0#64

/-- Audits of a task that no run can decide any longer end. -/
def State.dropAudits (s : State) (task : Nat) : State :=
  (s.audits.filter fun a => a.task == task && a.third).foldl State.endAudit s

/-- A run that an audit waited for has ended. -/
def State.settleAudit (s : State) (k : Task) (digest : W64) : State :=
  match k.audit.bind fun u => s.audits.find? fun a => a.uid == u with
  | some a => (s.modTask k.uid fun x => { x with audit := none, avoid := [] }).decideAudit a digest
  | none => s

/-! ## TASK_END (R49) -/

/-- A task that has exited counts as completed once. -/
def State.countTask (s : State) (k : Task) (digest : W64) : State :=
  let s := if k.counted then s else s.modLaunch k.launch fun l => { l with completed := l.completed + 1 }
  let s := if k.counted then s
    else s.modLaunch k.launch fun l => { l with digestSum := l.digestSum + digest }
  s.modTask k.uid fun x => { x with counted := true, state := .ended }

/-- A task that the reckoner started, or that a discard stops, has ended. -/
def State.leaveStarted (s : State) (ctx task : Nat) : State :=
  s.modTrace ctx fun t => { t with started := t.started.filter fun x => x != task }

/-- A discarded task whose team has gone leaves the trace (R121). -/
def State.finishDiscard (s : State) (ctx task : Nat) : State :=
  if ((s.trace? ctx).map fun t => t.stopping.contains task).getD false then s.freeNode ctx task else s

/-- The weight of an ended task is returned, or held back by its audit. -/
def State.endWeight (s : State) (t : Team) (k : Task) : State :=
  match s.auditOf t k with
  | some a => (({ s with audits := s.audits ++ [a] } : State).bump).modTask k.uid fun x => { x with weight := 0 }
  | none => s.returnWeight k.uid

/-- TASK_END: the release of Table 4.3 is complete with the last acknowledgement. -/
def execTaskEnd (team : Nat) (st : State) : Host.Outcome State Fault Refusal :=
  match (st.team? team).bind fun t => (st.task? t.task).map fun k => (t, k) with
  | none => .fault .notDue
  | some (t, k) =>
    if t.state != .exiting || !st.teamIdle t then .fault .notDue
    else
      let digest := k.digest
      let s := (st.countTask k digest).exitNode t.ctx k.uid digest
      let s := ((s.endWeight t k).settleAudit k digest).leaveStarted t.ctx k.uid
      .next ((s.removeTeam t).finishDiscard t.ctx k.uid)

/-! ## Retirement -/

/-- TAIL children in the order in which they stand at the head of the queue (R40). -/
def Launch.tailOrder (l : Launch) : List W64 :=
  let before := fun (a b : List (List Nat) × Nat × W64) =>
    if l.traced || l.det then posLt a.1 b.1 || (!posLt b.1 a.1 && decide (a.2.1 < b.2.1)) else decide (a.2.1 < b.2.1)
  (sortBy before l.tails).map fun x => x.2.2

/-- A launch leaves its queue, with its TAIL children at the head. -/
def State.leaveQueue (s : State) (l : Launch) (tails : List QueueItem) : State :=
  s.modQueue l.queue fun q => if q.running == some l.uid then { q with running := none, items := tails ++ q.items } else q

/-- The device-owned fields of a launch's record as it ends. R33 does not say when they are written while the launch
runs: the model writes the state at dispatch, and the other fields only here (DESIGN CHOICE, log 41). -/
def State.writeEnd (s : State) (l : Launch) (digest : W64) (state cause : Nat) : State :=
  s.writeRecordField l 216 (ownedBytes l.returned l.debt digest state cause l.completed)

/-- A launch retires (R49): its status is written last, and its queue's vector signalled. -/
def State.retireLaunch (s : State) (l : Launch) (digest : W64) : State :=
  let s := s.writeEnd l digest 2 0
  let s := s.leaveQueue l (l.tailOrder.map QueueItem.record)
  (s.modLaunch l.uid fun x => { x with state := .retired }).announce l.queue l.packet

/-- A launch fails: status 3, its TAIL children discarded, one record unless one has been written (R305). -/
def State.failLaunch (s : State) (l : Launch) (digest : W64) : State :=
  let cause := l.failCause.getD 0
  let s := if l.recordWritten then s
    else s.writeRecord { McRecord.blank 2 3 cause with addr := l.record, launchId := l.record, ctx := l.ctx }
  let s := (s.writeEnd l digest 3 cause).leaveQueue l []
  (s.modLaunch l.uid fun x => { x with state := .failed }).announce l.queue l.packet

/-- A launch is to run again from the head of its queue (R305). -/
def State.replayLaunch (s : State) (l : Launch) : State :=
  let s := (s.writeRecordField l 248 (bytesOfNat 8 0)).leaveQueue l [.replay l.uid]
  s.modLaunch l.uid fun x => { x with state := .queued }

/-- A launch whose weight is balanced ends: replayed, failed, or retired after its digest check (R131, R334). -/
def State.endLaunch (s : State) (l : Launch) : State :=
  let digest := s.launchDigest l
  if l.failCause.isSome then (if l.replayWanted then s.replayLaunch l else s.failLaunch l digest)
  else if l.det && l.expectedDigest != 0#64 && digest != l.expectedDigest then
    let s := s.failDigest l digest l.expectedDigest
    match s.launch? l.uid with
    | some x => s.failLaunch x digest
    | none => s
  else s.retireLaunch l digest

/-- Whether a launch still has tasks that wait or run. -/
def State.launchBusy (s : State) (launch : Nat) : Bool :=
  s.tasks.any fun k => k.launch == launch && (k.state == .waiting || k.state == .resident)

/-- The trace of a launch, while it records or settles, or after it has failed. -/
def State.ownTrace (s : State) (l : Launch) : Option Trace := (s.trace? l.ctx).filter fun t => t.owns l.uid

/-- Recording ends once every task of the launch has exited (Table 5.1). -/
def State.endRecording (s : State) (l : Launch) : State :=
  match s.ownTrace l with
  | some t => if t.state == .recording && !s.launchBusy l.uid then s.modTrace l.ctx fun t => { t with state := .settling } else s
  | none => s

/-- Whether a launch may end: its weight is balanced, and so is its recording pool; a trace has settled or failed. -/
def State.mayEnd (s : State) (l : Launch) : Bool :=
  l.state == .running && l.balanced &&
    match s.ownTrace l with
    | none => true
    | some t =>
      if t.state == .settling then t.quiet && !s.launchBusy l.uid
      else if t.state == .failed then t.balanced && t.started.isEmpty && t.stopping.isEmpty
      else false

/-- Settling ends as the launch retires. -/
def State.endSettling (s : State) (l : Launch) : State :=
  match s.ownTrace l with
  | some t => if t.state == .settling then s.modTrace l.ctx fun t => { t with state := .ready } else s
  | none => s

/-- A launch ends if it may. -/
def State.checkLaunch (s : State) (launch : Nat) : State :=
  match s.launch? launch with
  | none => s
  | some l =>
    let s := if l.state == .running then s.endRecording l else s
    if s.mayEnd l then ((s.endSettling l).endLaunch l).forgetLaunches else s

end Sys2Proof.Machine
end

