-- ==== Sys2Proof/Machine/Kill.lean ====
section
/-! DEFINITION. KILL_DRAIN_COMPLETE: steps 2 to 6 of KillTeam (R303) and the recovery of a failed task (R305). -/

namespace Sys2Proof.Machine

/-- The node of a task in an acting trace of its own launch. -/
def State.nodeOf (s : State) (k : Task) : Option Node :=
  ((s.launch? k.launch).bind fun l => (s.actingTrace? l.ctx).filter fun t => t.owns l.uid).bind fun t => t.node? k.uid

/-- The recovery of a task whose team was killed: 1 re-execution, 2 replay, 3 launch failed, 4 trace failed. -/
def State.recovery (s : State) (k : Task) : Nat :=
  match s.nodeOf k with
  | some n => if n.failures + 1 ≥ 3 then 4 else 1
  | none =>
    match s.launch? k.launch with
    | some l => if l.replayable && !l.recordWritten then 2 else 3
    | none => 3

/-- The record of a kill (R306). -/
def State.killRecord (s : State) (t : Team) (k : Task) (x : Kill) : McRecord :=
  { info := x.info, pc := x.pc, launchId := ((s.launch? t.launch).map Launch.record).getD 0#64
    ordinal := ((s.launch? t.launch).map fun l => ordinalOf l k).getD 0#64, addr := x.addr, lanes := x.lanes
    firstCause := x.firstCause, cause := x.cause, kind := x.kind, action := s.recovery k, core := t.core, slot := x.slot
    ctx := t.ctx }

/-- A running launch is marked for replay or failed. -/
def State.failTask (s : State) (launch cause : Nat) : State :=
  s.modLaunch launch fun l => if l.state == .running then l.markFailed cause else l

/-- Step 6 of R303. -/
def State.recover (s : State) (k : Task) (ctx action cause : Nat) : State :=
  if action == 1 then s.modTrace ctx fun t => t.modNode k.uid Node.fail
  else if action == 4 then
    ((s.modTrace ctx fun t => t.modNode k.uid Node.fail).failTrace ctx cause 0#64 false).failTask k.launch cause
  else s.failTask k.launch cause

/-- KILL_DRAIN_COMPLETE. -/
def execKillDrainComplete (team : Nat) (st : State) : Host.Outcome State Fault Refusal :=
  match (st.team? team).bind fun t => (st.task? t.task).bind fun k => t.kill.map fun x => (t, k, x) with
  | none => .fault .notDue
  | some (t, k, x) =>
    if t.state != .killed || !st.teamIdle t then .fault .notDue
    else
      let action := st.recovery k
      let s := if x.silent then st else st.writeRecord (st.killRecord t k x)
      let s := ((s.handOverAll k.uid).returnWeight k.uid).removeTeam t
      let s := (s.modTask k.uid fun k => { k with state := .ended }).leaveStarted t.ctx k.uid
      let s := if k.counted then s else s.modLaunch k.launch fun l => { l with digestSum := l.digestSum + k.digest }
      let s := if x.silent || action != 1 then s.dropAudits k.uid else s
      let s := if x.silent then s else s.recover k t.ctx action x.cause
      .next (s.finishDiscard t.ctx k.uid)

end Sys2Proof.Machine
end

