-- ==== Sys2Proof/Machine/Preempt.lean ====
section
/-! DEFINITION. Pre-emption and restore (R44, R50 to R52, R312): the request, PREEMPT_DRAIN_COMPLETE and TEAM_RESTORE. -/

namespace Sys2Proof.Machine

/-! ## The save area (R51) -/

/-- Bytes of a team's save area. -/
def Team.saveBytes (t : Team) : Nat :=
  4096 + t.gangs.length * (1024 + 32 * (64 * t.regs8 + 320)) + 16384 * (t.scratchUnits + accUnits t.accTiles)
    + 64 * t.barriers.length

/-- Whether a team holds a place in the save arena. -/
def Team.holdsArea (t : Team) : Bool := t.state == .draining || t.state == .saved || t.drainWanted

/-- Whether a range of the save arena is free. -/
def State.saveFree (s : State) (c : Context) (a n : Nat) : Bool :=
  decide (c.saveBase ≤ a) && decide (a + n ≤ c.saveBase + c.saveSize) &&
    (s.teams.filter fun t => t.ctx == c.id && t.holdsArea).all fun t =>
      decide (a + n ≤ t.saveArea.toNat) || decide (t.saveArea.toNat + t.saveBytes ≤ a)

/-- The place of a team's area. -/
def State.placeSave (s : State) (c : Context) (t : Team) : Option Nat :=
  (c.saveBase :: ((s.teams.filter fun t => t.ctx == c.id && t.holdsArea).map fun t =>
    t.saveArea.toNat + t.saveBytes)).find? fun a => s.saveFree c a t.saveBytes

/-! ## The request -/

/-- Whether a team may still be pre-empted. -/
def Team.preemptible (t : Team) : Bool := (t.state == .zeroing || t.state == .running) && !t.drainWanted

/-- Ask a team to drain; its context's SAVED teams are restored in the order of their pre-emption (R44). -/
def Team.askDrain (t : Team) (area order : Nat) : Team :=
  let t := { t with saveArea := BitVec.ofNat 64 area, saveOrder := order }
  let t := t.excuse
  if t.state == .running then { t with state := .draining } else { t with drainWanted := true }

/-- Pre-empt one team; `none` where the save arena lacks room (R312). -/
def State.preempt (s : State) (t : Team) : Option State :=
  if !t.preemptible then some s
  else
    ((s.context? t.ctx).bind fun c => s.placeSave c t).map fun a => (s.modTeam t.uid fun x => x.askDrain a s.nextUid).bump

/-! ## Saving paths -/

/-- A path stops: its threads go on later at its word. -/
def Gang.pausePath (g : Gang) (p : Path) : Gang :=
  (g.mapLanes (lanesOf p.lanes) fun _ t =>
    { t with resume := some { word := p.prefixAddr, header := p.header } }).dropPath p.uid

/-- A gang as it is saved: no path, no transaction (R220). -/
def Gang.save (g : Gang) : Gang := g.paths.foldl Gang.pausePath (g.abortTx 6)

/-! ## PREEMPT_DRAIN_COMPLETE -/

/-- Whether an operation may outlast the drain: a blocking CLAIM that stands in its entry's queue (R50), or under DET one
whose decided result is a grant that waits for the team to run again (R296). -/
def State.exempt (s : State) (o : Op) : Bool :=
  match o.kind with
  | .claim _ _ _ none => true
  | .claim _ _ _ (some _) => (((s.team? o.team).map fun t => s.detLaunch t.launch).getD false) && o.queued && o.live
  | _ => false

/-- Whether a draining team has drained. -/
def State.drainedTeam (s : State) (t : Team) : Bool :=
  (t.gangs.all fun g => g.unacked == 0 && g.paths.all Path.pausable)
    && (s.ops.all fun o => o.team != t.uid || s.exempt o)
    && (t.commands.all fun c => c.state == .done || c.state == .stopped)
    && !(s.core t.core).stores.any fun x => x.team == t.uid

/-- Write a save area in pieces of 64 bytes, in the device's own layout; the first failure has a cause. -/
def State.writeArea (s : State) (ctx : Nat) (va : W64) : Nat → State × Option (Nat × W64)
  | 0 => (s, none)
  | n + 1 =>
    match s.writeArea ctx va n with
    | (s, some e) => (s, some e)
    | (s, none) =>
      let a := va + BitVec.ofNat 64 (64 * n)
      s.recordWrite ctx a ((List.range 64).map fun k => Config.privateByte ctx (a.toNat + k))

/-- A kill for a failed save or restore (Table 18.5). -/
def Team.saveKill (t : Team) (cause : Nat) (info : W64) : Kill :=
  { cause, firstCause := 0, info, addr := if cause == Cause.poison then info else 0#64, pc := 0#64, lanes := 0#32, kind := 3
    slot := ((t.gangs.head?).map Gang.slot).getD 0, silent := false }

/-- The team is saved: its places on the core are free. -/
def State.saveTeam (s : State) (t : Team) : State :=
  let s := (List.range t.gangs.length).foldl (fun s g => s.settleFlags t.uid g)
    (s.modTeam t.uid fun t => { t with gangs := t.gangs.map Gang.save })
  let s := s.modTeam t.uid fun t =>
    { t with
      state := .saved
      gangs := t.gangs.map fun g =>
        { g with activeSlot := none, residency := if g.residency == .done then .done else .pendingWait } }
  s.freeActives t.core t

/-- Whether a page of a save area is being zeroed for another walk (R263). -/
def State.areaZeroing (s : State) (t : Team) : Bool :=
  (List.range ((t.saveBytes + 63) / 64)).any fun k => s.unitZeroing t.ctx (t.saveArea + BitVec.ofNat 64 (64 * k))

/-- PREEMPT_DRAIN_COMPLETE, once the pages of the save area are there to be written. A team whose gangs are all done meanwhile is exiting, and has nothing to save. -/
def execPreemptDrainComplete (team : Nat) (st : State) : Host.Outcome State Fault Refusal :=
  match st.team? team with
  | none => .fault .notDue
  | some t =>
    if t.state != .draining || !st.drainedTeam t then .fault .notDue
    else if t.gangs.all fun g => g.allExited then
      .next (st.modTeam team fun t => { t with state := .exiting })
    else if st.areaZeroing t then .fault .notDue
    else
      match st.writeArea t.ctx t.saveArea ((t.saveBytes + 63) / 64) with
      | (s, some (c, a)) => .next (s.killTeam team (t.saveKill c a))
      | (s, none) => .next (s.saveTeam t)

/-! ## TEAM_RESTORE -/

/-- The first poisoned sector of a save area, by its physical address. -/
def State.areaPoison (s : State) (t : Team) : Option Nat :=
  ((List.range ((t.saveBytes + 63) / 64)).filterMap fun k =>
    let va := t.saveArea + BitVec.ofNat 64 (64 * k)
    match s.walkTables t.ctx va with
    | .leaf _ _ e => if !isRemote (leafPhys e va) && s.poisonedAt (leafPhys e va) 1 then some (leafPhys e va / 64 * 64) else none
    | .fault _ _ => none).head?

/-- Whether another SAVED team of the context goes first: pre-empted earlier, and admitted by some core (R44). -/
def State.restoredBefore (s : State) (t : Team) : Bool :=
  s.teams.any fun o =>
    o.uid != t.uid && o.ctx == t.ctx && s.restorable o && decide (o.saveOrder < t.saveOrder) && (s.placeSaved o).isSome

/-- A gang on its new core. Its age there is that of a new admission, since gang age is admission order (R47; R52 does
not name it; DESIGN CHOICE, log 44). -/
def Gang.moved (g : Gang) (slot age : Nat) : Gang :=
  { g with slot, age, residency := if g.residency == .done then .done else .pendingReady, activeSlot := none }

/-- A restored WAITF observes afresh (R215). Under DET its observations are grants, which a pre-emption does not change
(R55, R296). -/
def Thread.observeAfresh (t : Thread) (det : Bool) : Thread := if det then t else t.wakeWait

/-- The state of Table 2.10 on a new core, with BARBASE and ENGCTX rebuilt; the restore acquires at device scope. -/
def State.restoreTeam (s : State) (t : Team) (core : Nat) : State :=
  let slots := pickSome s.tick t.gangs.length (s.freeSlots core)
  let bar := s.pickBarriers core t.barriers.length
  let eng := s.pickContexts core t.timelines.length
  let age := s.nextUid
  let s := (s.modTeam t.uid fun t =>
    { t with
      core, state := .running, barBase := bar, engMap := eng
      gangs := t.gangs.mapIdx fun k g =>
        { g.moved (slots.getD k 0) age with threads := g.threads.map fun th => th.observeAfresh (s.detLaunch t.launch) } }).bump
  let s := { s with ops := s.ops.map fun (o : Op) => if o.team == t.uid then { o with core := core } else o }
  let s := s.modCore core fun c =>
    if c.auditCtl.getLsbD 7 then { c with auditNumber := c.auditNumber + 1 } else c
  (s.invalidateL1 core).seatGangs t.uid core t.gangs.length

/-- TEAM_RESTORE. -/
def execTeamRestore (team : Nat) (st : State) : Host.Outcome State Fault Refusal :=
  match st.team? team with
  | none => .fault .notDue
  | some t =>
    match st.placeSaved t with
    | none => .fault .notDue
    | some core =>
      if !st.restorable t || st.restoredBefore t then .fault .notDue
      else
        match st.areaPoison t with
        | some pa => .next (st.killTeam team (t.saveKill Cause.poison (BitVec.ofNat 64 pa)))
        | none => .next (st.restoreTeam t core)

end Sys2Proof.Machine
end

