-- ==== Sys2Proof/Machine/Audits.lean ====
section
/-! DEFINITION. AUDIT_REPLAY and AUDIT_REPLAY_END (R338, R339). -/

namespace Sys2Proof.Machine

/-- The other cores of a core's die on which a team with a demand could run. -/
def State.replayCores (s : State) (l : Launch) (c : Context) (core : Nat) (a : Ask) : List Nat :=
  (List.range 72).filterMap fun k =>
    let x := core / 72 * 72 + k
    if x != core && !(s.core x).retired && s.admits l c a x then some x else none

/-- Where a replay runs now. -/
def State.placeReplay (s : State) (a : Audit) : Option (Launch × Nat × Nat) :=
  (s.launch? a.launch).bind fun l => (s.context? l.ctx).bind fun c =>
    (s.roomiest (s.replayCores l c a.core (Desc.ask a.ran.desc))).bind fun core =>
      (s.placeBlock c a.uid (Desc.privBytes a.ran.desc)).map fun b => (l, core, b)

/-- The team of a replay: the task's own at admission, in the place that R43 gives it; its threads carry the private
addresses of the first run, which the log holds (DEDUCED, log 43). -/
def State.replayTeam (s : State) (a : Audit) (l : Launch) (core block : Nat) : Team :=
  { s.freshTeam l a.ran core a.block.toNat .replay with task := a.uid, privBlock := BitVec.ofNat 64 block }

/-- The task whose stores a replay folds, with none as yet. -/
def Task.unwritten (k : Task) : Task := { k with written := Memory.empty, writtenAt := [] }

/-- An audit whose replay begins. -/
def Audit.begin (a : Audit) (team core : Nat) : Audit :=
  { a with replay := some (team, core), left := a.log, ran := a.ran.unwritten, mismatch := false, lost := false }

/-- AUDIT_REPLAY. An audit whose task has been discarded meanwhile ends. -/
def execAuditReplay (audit : Nat) (st : State) : Host.Outcome State Fault Refusal :=
  match st.audits.find? fun a => a.uid == audit with
  | none => .fault .notDue
  | some a =>
    if a.replay.isSome then .fault .notDue
    else if (st.task? a.task).isNone then .next (st.endAudit a)
    else
      match st.placeReplay a with
      | none => .fault .notDue
      | some (l, core, b) =>
        let t := st.replayTeam a l core b
        let s := (({ st with teams := st.teams ++ [t] } : State).bump).modAudit audit fun a => a.begin t.uid core
        .next (s.seatGangs t.uid core t.gangs.length)

/-- An untraced task runs again from its descriptor; the audit holds its weight. -/
def Task.again (k : Task) (now : Nat) (avoid : List Nat) (audit : Nat) : Task :=
  { k.unwritten with
    weight := 0, state := .waiting, spawnIndex := 0, programKeys := [], arrival := now, avoid, audit := some audit }

/-- The third run, on neither of the first two cores: by the reckoner for a traced task (R339). -/
def State.thirdRun (s : State) (a : Audit) (core : Nat) (digest : W64) : State :=
  let s := s.modAudit a.uid fun x => { x with replayDigest := some digest, third := true }
  let avoid := [a.core, core]
  match (s.task? a.task).bind fun k => (s.launch? a.launch).map fun l => (k, l) with
  | none => s.endAudit a
  | some (k, l) =>
    match s.nodeOf k with
    | some _ =>
      (s.modTask a.task fun k => { k with avoid, audit := some a.uid }).modTrace l.ctx fun t => t.mark a.task
    | none =>
      (s.modTask a.task fun k => k.again s.nextUid avoid a.uid).bump

/-- Whether a replay has come to its end: its team has exited with nothing under way, or it is over before that. -/
def State.replayEnded (s : State) (a : Audit) (t : Team) : Bool :=
  a.mismatch || a.lost || ((t.gangs.all Gang.allExited) && s.teamIdle t)

/-- The record of a mismatch (R339). -/
def State.mismatchRecord (s : State) (a : Audit) (digest : W64) : McRecord :=
  let l := s.launch? a.launch
  { McRecord.blank 4 1 Cause.digest with
    info := digest, core := a.core, launchId := (l.map Launch.record).getD 0#64, ctx := (l.map Launch.ctx).getD 0
    ordinal := ((s.task? a.task).bind fun k => l.map fun l => ordinalOf l k).getD 0#64 }

/-- AUDIT_REPLAY_END: the replay's digest is compared with the task's own. A replay that an error has stopped is made
again (DESIGN CHOICE, log 43). -/
def execAuditReplayEnd (audit : Nat) (st : State) : Host.Outcome State Fault Refusal :=
  match (st.audits.find? fun a => a.uid == audit).bind fun a => a.replay.map fun r => (a, r) with
  | none => .fault .notDue
  | some (a, (team, core)) =>
    match st.team? team with
    | none => .fault .notDue
    | some t =>
      if a.replayDigest.isSome || !st.replayEnded a t then .fault .notDue
      else
        let digest := a.ran.digest
        let s := st.removeTeam t
        if a.lost then .next (s.modAudit audit fun a => { a with replay := none })
        else if !a.mismatch && digest == a.digest then .next (s.endAudit a)
        else .next ((s.writeRecord (s.mismatchRecord a digest)).thirdRun a core digest)

end Sys2Proof.Machine
end

