-- ==== Sys2Proof/Machine/Crypto.lean ====
section
/-! DEFINITION. The hash and the signatures that R277 and R278 name by their standards: SHA-384, RSASSA-PSS with SHA-384 and
a 48-byte salt, and SLH-DSA-SHA2-128s of FIPS 205. The spec names the standards and does not repeat them, so that what
stands here is PRESUMED (log 58). Bytes are natural numbers below 256; integers stand highest byte first. -/

namespace Sys2Proof.Machine

/-! ## Bytes -/

/-- The integer of bytes, highest first. -/
def ofBytes (bs : List Nat) : Nat := bs.foldl (fun v b => 256 * v + b) 0

/-- An integer as n bytes, highest first. -/
def toBytes : Nat → Nat → List Nat
  | 0, _ => []
  | n + 1, v => v / 256 ^ n % 256 :: toBytes n v

/-- Bytes n by n, for a number of pieces. -/
def pieces (n : Nat) : Nat → List Nat → List (List Nat)
  | 0, _ => []
  | k + 1, bs => bs.take n :: pieces n k (bs.drop n)

def xorBytes (xs ys : List Nat) : List Nat := List.zipWith (· ^^^ ·) xs ys

/-! ## SHA-2 -/

/-- The two members of the family that are used: SHA-256 with words of 32 bits, SHA-384 with words of 64. The three numbers
of each function are rotations, the last of a small one a shift. -/
structure ShaKind where
  bits : Nat
  rounds : Nat
  big0 : Nat × Nat × Nat
  big1 : Nat × Nat × Nat
  small0 : Nat × Nat × Nat
  small1 : Nat × Nat × Nat
  start : List Nat
  length : Nat

/-- The round constants: the fractions of the cube roots of the first 80 primes; SHA-256 takes the upper halves. -/
def shaK0 : List Nat :=
  [0x428A2F98D728AE22, 0x7137449123EF65CD, 0xB5C0FBCFEC4D3B2F, 0xE9B5DBA58189DBBC]
    ++ [0x3956C25BF348B538, 0x59F111F1B605D019, 0x923F82A4AF194F9B, 0xAB1C5ED5DA6D8118]
    ++ [0xD807AA98A3030242, 0x12835B0145706FBE, 0x243185BE4EE4B28C, 0x550C7DC3D5FFB4E2]
    ++ [0x72BE5D74F27B896F, 0x80DEB1FE3B1696B1, 0x9BDC06A725C71235, 0xC19BF174CF692694]
    ++ [0xE49B69C19EF14AD2, 0xEFBE4786384F25E3, 0x0FC19DC68B8CD5B5, 0x240CA1CC77AC9C65]

def shaK1 : List Nat :=
  [0x2DE92C6F592B0275, 0x4A7484AA6EA6E483, 0x5CB0A9DCBD41FBD4, 0x76F988DA831153B5]
    ++ [0x983E5152EE66DFAB, 0xA831C66D2DB43210, 0xB00327C898FB213F, 0xBF597FC7BEEF0EE4]
    ++ [0xC6E00BF33DA88FC2, 0xD5A79147930AA725, 0x06CA6351E003826F, 0x142929670A0E6E70]
    ++ [0x27B70A8546D22FFC, 0x2E1B21385C26C926, 0x4D2C6DFC5AC42AED, 0x53380D139D95B3DF]
    ++ [0x650A73548BAF63DE, 0x766A0ABB3C77B2A8, 0x81C2C92E47EDAEE6, 0x92722C851482353B]

def shaK2 : List Nat :=
  [0xA2BFE8A14CF10364, 0xA81A664BBC423001, 0xC24B8B70D0F89791, 0xC76C51A30654BE30]
    ++ [0xD192E819D6EF5218, 0xD69906245565A910, 0xF40E35855771202A, 0x106AA07032BBD1B8]
    ++ [0x19A4C116B8D2D0C8, 0x1E376C085141AB53, 0x2748774CDF8EEB99, 0x34B0BCB5E19B48A8]
    ++ [0x391C0CB3C5C95A63, 0x4ED8AA4AE3418ACB, 0x5B9CCA4F7763E373, 0x682E6FF3D6B2B8A3]
    ++ [0x748F82EE5DEFB2FC, 0x78A5636F43172F60, 0x84C87814A1F0AB72, 0x8CC702081A6439EC]

def shaK3 : List Nat :=
  [0x90BEFFFA23631E28, 0xA4506CEBDE82BDE9, 0xBEF9A3F7B2C67915, 0xC67178F2E372532B]
    ++ [0xCA273ECEEA26619C, 0xD186B8C721C0C207, 0xEADA7DD6CDE0EB1E, 0xF57D4F7FEE6ED178]
    ++ [0x06F067AA72176FBA, 0x0A637DC5A2C898A6, 0x113F9804BEF90DAE, 0x1B710B35131C471B]
    ++ [0x28DB77F523047D84, 0x32CAAB7B40C72493, 0x3C9EBE0A15C9BEBC, 0x431D67C49C100D4C]
    ++ [0x4CC5D4BECB3E42B6, 0x597F299CFC657E2A, 0x5FCB6FAB3AD6FAEC, 0x6C44198C4A475817]

def shaK : List Nat := shaK0 ++ shaK1 ++ shaK2 ++ shaK3

/-- The fractions of the square roots of the first eight primes, and of the eight after them. -/
def shaStart : List Nat :=
  [0x6A09E667F3BCC908, 0xBB67AE8584CAA73B, 0x3C6EF372FE94F82B, 0xA54FF53A5F1D36F1]
    ++ [0x510E527FADE682D1, 0x9B05688C2B3E6C1F, 0x1F83D9ABFB41BD6B, 0x5BE0CD19137E2179]

def shaStart384 : List Nat :=
  [0xCBBB9D5DC1059ED8, 0x629A292A367CD507, 0x9159015A3070DD17, 0x152FECD8F70E5939]
    ++ [0x67332667FFC00B31, 0x8EB44A8768581511, 0xDB0C2E0D64F98FA7, 0x47B5481DBEFA4FA4]

def sha256Kind : ShaKind :=
  { bits := 32, rounds := 64, big0 := (2, 13, 22), big1 := (6, 11, 25), small0 := (7, 18, 3), small1 := (17, 19, 10)
    start := shaStart.map (· / 2 ^ 32), length := 32 }

def sha384Kind : ShaKind :=
  { bits := 64, rounds := 80, big0 := (28, 34, 39), big1 := (14, 18, 41), small0 := (1, 8, 7), small1 := (19, 61, 6)
    start := shaStart384, length := 48 }

def ShaKind.constants (k : ShaKind) : List Nat := (shaK.take k.rounds).map (· / 2 ^ (64 - k.bits))

def rotateRight (w x n : Nat) : Nat := x / 2 ^ n + x % 2 ^ n * 2 ^ (w - n)

def ShaKind.big (k : ShaKind) (r : Nat × Nat × Nat) (x : Nat) : Nat :=
  rotateRight k.bits x r.1 ^^^ rotateRight k.bits x r.2.1 ^^^ rotateRight k.bits x r.2.2

def ShaKind.small (k : ShaKind) (r : Nat × Nat × Nat) (x : Nat) : Nat :=
  rotateRight k.bits x r.1 ^^^ rotateRight k.bits x r.2.1 ^^^ x / 2 ^ r.2.2

/-- One round on the eight working words, with a constant and a word of the schedule. -/
def ShaKind.round (k : ShaKind) (c w : Nat) : List Nat → List Nat
  | [a, b, c', d, e, f, g, h] =>
    let t1 := h + k.big k.big1 e + ((e &&& f) ^^^ ((2 ^ k.bits - 1 - e) &&& g)) + c + w
    let t2 := k.big k.big0 a + ((a &&& b) ^^^ (a &&& c') ^^^ (b &&& c'))
    [(t1 + t2) % 2 ^ k.bits, a, b, c', (d + t1) % 2 ^ k.bits, e, f, g]
  | x => x

/-- The word that joins the sixteen latest of the schedule. -/
def ShaKind.extend (k : ShaKind) (ws : List Nat) : Nat :=
  (k.small k.small1 (ws.getD 14 0) + ws.getD 9 0 + k.small k.small0 (ws.getD 1 0) + ws.getD 0 0) % 2 ^ k.bits

/-- The rounds, one for each constant. -/
def ShaKind.run (k : ShaKind) : List Nat → List Nat → List Nat → List Nat
  | [], _, v => v
  | c :: cs, ws, v => k.run cs (ws.drop 1 ++ [k.extend ws]) (k.round c (ws.headD 0) v)

/-- One block. -/
def ShaKind.block (k : ShaKind) (v block : List Nat) : List Nat :=
  List.zipWith (fun x y => (x + y) % 2 ^ k.bits) v
    (k.run k.constants ((pieces (k.bits / 8) 16 block).map ofBytes) v)

/-- A message with its padding. -/
def ShaKind.pad (k : ShaKind) (m : List Nat) : List Nat :=
  let b := 2 * k.bits
  let used := m.length + 1 + k.bits / 4
  m ++ 0x80 :: (List.replicate ((b - used % b) % b) 0 ++ toBytes (k.bits / 4) (8 * m.length))

def ShaKind.hash (k : ShaKind) (m : List Nat) : List Nat :=
  let p := k.pad m
  let v := (pieces (2 * k.bits) (p.length / (2 * k.bits)) p).foldl k.block k.start
  (v.flatMap (toBytes (k.bits / 8))).take k.length

def sha256 (m : List Nat) : List Nat := sha256Kind.hash m
def sha384 (m : List Nat) : List Nat := sha384Kind.hash m

/-- The mask generation function MGF1: n bytes of a seed. -/
def ShaKind.mask (k : ShaKind) (seed : List Nat) (n : Nat) : List Nat :=
  ((List.range (n / k.length + 1)).flatMap fun c => k.hash (seed ++ toBytes 4 c)).take n

/-! ## RSASSA-PSS, RSA-3072 (RFC 8017) -/

/-- b to the power e, modulo n; the fuel bounds the bits of e. -/
def powerMod (n : Nat) : Nat → Nat → Nat → Nat
  | 0, _, _ => 1 % n
  | fuel + 1, b, e =>
    if e = 0 then 1 % n
    else
      let r := powerMod n fuel (b * b % n) (e / 2)
      if e % 2 = 1 then b * r % n else r

/-- The encoded message of a hash and a salt. -/
def pssEncode (hash salt : List Nat) : List Nat :=
  let h := sha384 (List.replicate 8 0 ++ hash ++ salt)
  let masked := xorBytes (List.replicate 286 0 ++ 1 :: salt) (sha384Kind.mask h 335)
  masked.headD 0 % 128 :: masked.drop 1 ++ h ++ [0xBC]

/-- Whether a signature of a message verifies under a modulus and an exponent: the encoded message that it shows is that of
the message's hash with the salt that its masked block shows. -/
def rsaVerifies (n e : Nat) (message : List Nat) (signature : Nat) : Bool :=
  let encoded := toBytes 384 (powerMod n 3072 signature e)
  let salt := (xorBytes (encoded.take 335) (sha384Kind.mask ((encoded.drop 335).take 48) 335)).drop 287
  n.log2 == 3071 && decide (signature < n) && encoded == pssEncode (sha384 message) salt

/-- A signature by the private exponent, with a salt. -/
def rsaSign (n d : Nat) (message salt : List Nat) : Nat :=
  powerMod n 3072 (ofBytes (pssEncode (sha384 message) salt)) d

/-! ## SLH-DSA-SHA2-128s (FIPS 205): n = 16, h = 63, d = 7, h' = 9, a = 12, k = 14, w = 16 -/

/-- A compressed address: layer, tree, type, and three words. -/
def slhAddress (layer tree type a b c : Nat) : List Nat :=
  toBytes 1 layer ++ toBytes 8 tree ++ toBytes 1 type ++ toBytes 4 a ++ toBytes 4 b ++ toBytes 4 c

/-- F, H, T and PRF: the first 16 bytes of the SHA-256 of the padded seed, an address and a message. -/
def slhHash (seed address m : List Nat) : List Nat :=
  (sha256 (seed ++ List.replicate 48 0 ++ address ++ m)).take 16

/-- The 35 digits of base 16 of a message of 16 bytes and its checksum. -/
def wotsDigits (m : List Nat) : List Nat :=
  let ds := m.flatMap fun b => [b / 16, b % 16]
  let sum := (ds.map fun x => 15 - x).sum
  ds ++ [sum / 256 % 16, sum / 16 % 16, sum % 16]

/-- A place in the hypertree: layer, tree and key pair. -/
structure SlhPlace where
  layer : Nat
  tree : Nat
  pair : Nat

def SlhPlace.address (p : SlhPlace) (type b c : Nat) : List Nat := slhAddress p.layer p.tree type p.pair b c

/-- n steps of chain i, from a step on. -/
def wotsChain (seed : List Nat) (p : SlhPlace) (i : Nat) : Nat → Nat → List Nat → List Nat
  | 0, _, x => x
  | n + 1, at', x => wotsChain seed p i n (at' + 1) (slhHash seed (p.address 0 i at') x)

/-- A WOTS+ public key of the ends of its chains. -/
def wotsKey (seed : List Nat) (p : SlhPlace) (ends : List (List Nat)) : List Nat := slhHash seed (p.address 1 0 0) ends.flatten

/-- The public key that a WOTS+ signature of a message shows. -/
def wotsFrom (seed : List Nat) (p : SlhPlace) (sig m : List Nat) : List Nat :=
  wotsKey seed p ((List.zip (pieces 16 35 sig) (wotsDigits m)).mapIdx fun i x => wotsChain seed p i (15 - x.2) x.2 x.1)

/-- Up a tree along an authentication path, from the node of an index. -/
def climb (seed : List Nat) (address : Nat → Nat → List Nat) : List (List Nat) → Nat → Nat → List Nat → List Nat
  | [], _, _, x => x
  | a :: as, height, i, x =>
    climb seed address as (height + 1) (i / 2)
      (slhHash seed (address (height + 1) (i / 2)) (if i % 2 = 0 then x ++ a else a ++ x))

/-- The root of an XMSS tree that a signature of a message shows. -/
def xmssFrom (seed : List Nat) (p : SlhPlace) (sig m : List Nat) : List Nat :=
  climb seed (fun h i => slhAddress p.layer p.tree 2 0 h i) (pieces 16 9 (sig.drop 560)) 0 p.pair (wotsFrom seed p sig m)

/-- The place in the layer above. -/
def SlhPlace.above (p : SlhPlace) : SlhPlace := { layer := p.layer + 1, tree := p.tree / 2 ^ 9, pair := p.tree % 2 ^ 9 }

/-- Up the layers of the hypertree from a place, by their signatures. -/
def hypertreeFrom (seed : List Nat) : List (List Nat) → SlhPlace → List Nat → List Nat
  | [], _, m => m
  | sig :: sigs, p, m => hypertreeFrom seed sigs p.above (xmssFrom seed p sig m)

/-- The digest of a message with its randomiser: the 14 indices of the FORS trees, and the place at which it is signed. -/
def slhDigest (r seed root m : List Nat) : List Nat × SlhPlace :=
  let d := sha256Kind.mask (r ++ seed ++ sha256 (r ++ seed ++ root ++ m)) 30
  let v := ofBytes (d.take 21)
  ((List.range 14).map fun i => v / 2 ^ (156 - 12 * i) % 2 ^ 12,
    { layer := 0, tree := ofBytes ((d.drop 21).take 7) % 2 ^ 54, pair := ofBytes (d.drop 28) % 2 ^ 9 })

/-- The FORS public key of its roots. -/
def forsKey (seed : List Nat) (p : SlhPlace) (roots : List (List Nat)) : List Nat := slhHash seed (p.address 4 0 0) roots.flatten

/-- The FORS public key that a signature of indices shows. -/
def forsFrom (seed : List Nat) (p : SlhPlace) (sig indices : List Nat) : List Nat :=
  forsKey seed p ((List.zip (pieces 208 14 sig) indices).mapIdx fun i x =>
    let at' := 2 ^ 12 * i + x.2
    climb seed (p.address 3) (pieces 16 12 (x.1.drop 16)) 0 at' (slhHash seed (p.address 3 0 at') (x.1.take 16)))

/-- A message as SLH-DSA signs it: pure, with an empty context. -/
def slhMessage (m : List Nat) : List Nat := 0 :: 0 :: m

/-- Whether a signature of 7,856 bytes of a message verifies under a public key of a seed and a root. -/
def slhVerifies (key m sig : List Nat) : Bool :=
  let seed := key.take 16
  let root := key.drop 16
  let d := slhDigest (sig.take 16) seed root (slhMessage m)
  sig.length == 7856 &&
    hypertreeFrom seed (pieces 704 7 (sig.drop 2928)) d.2 (forsFrom seed d.2 (sig.drop 16) d.1) == root

/-! ## Signing -/

/-- A secret key: the secret seed, the key of the randomiser, and the public key. -/
structure SlhSecret where
  seed : List Nat
  prf : List Nat
  publicSeed : List Nat
  root : List Nat

/-- HMAC-SHA-256 of a key of 16 bytes. -/
def hmac256 (key m : List Nat) : List Nat :=
  let k := key ++ List.replicate 48 0
  sha256 (k.map (· ^^^ 0x5C) ++ sha256 (k.map (· ^^^ 0x36) ++ m))

/-- The start of chain i of a WOTS+ key pair. -/
def SlhSecret.wots (k : SlhSecret) (p : SlhPlace) (i : Nat) : List Nat := slhHash k.publicSeed (p.address 5 i 0) k.seed

/-- A node of an XMSS tree: at a height, by its index. -/
def SlhSecret.node (k : SlhSecret) (layer tree : Nat) : Nat → Nat → List Nat
  | 0, i =>
    let p : SlhPlace := { layer, tree, pair := i }
    wotsKey k.publicSeed p ((List.range 35).map fun c => wotsChain k.publicSeed p c 15 0 (k.wots p c))
  | h + 1, i =>
    slhHash k.publicSeed (slhAddress layer tree 2 0 (h + 1) i) (k.node layer tree h (2 * i) ++ k.node layer tree h (2 * i + 1))

/-- An XMSS signature of a message at a place. -/
def SlhSecret.xmss (k : SlhSecret) (p : SlhPlace) (m : List Nat) : List Nat :=
  ((wotsDigits m).mapIdx fun i d => wotsChain k.publicSeed p i d 0 (k.wots p i)).flatten
    ++ (List.range 9).flatMap fun h => k.node p.layer p.tree h ((p.pair / 2 ^ h) ^^^ 1)

/-- Hypertree signatures of a number of layers, from a place up. -/
def SlhSecret.hypertree (k : SlhSecret) : Nat → SlhPlace → List Nat → List Nat
  | 0, _, _ => []
  | n + 1, p, m =>
    let sig := k.xmss p m
    sig ++ k.hypertree n p.above (xmssFrom k.publicSeed p sig m)

/-- The secret value of a FORS leaf. -/
def SlhSecret.leaf (k : SlhSecret) (p : SlhPlace) (i : Nat) : List Nat := slhHash k.publicSeed (p.address 6 0 i) k.seed

/-- A node of the FORS trees: at a height, by its index among those of all of them. -/
def SlhSecret.forsNode (k : SlhSecret) (p : SlhPlace) : Nat → Nat → List Nat
  | 0, i => slhHash k.publicSeed (p.address 3 0 i) (k.leaf p i)
  | h + 1, i => slhHash k.publicSeed (p.address 3 (h + 1) i) (k.forsNode p h (2 * i) ++ k.forsNode p h (2 * i + 1))

/-- A FORS signature of indices. -/
def SlhSecret.fors (k : SlhSecret) (p : SlhPlace) (indices : List Nat) : List Nat :=
  (indices.mapIdx fun i x =>
    let at' := 2 ^ 12 * i + x
    k.leaf p at' ++ (List.range 12).flatMap fun h => k.forsNode p h ((at' / 2 ^ h) ^^^ 1)).flatten

/-- The signature of a message, with 16 bytes of randomness. -/
def SlhSecret.sign (k : SlhSecret) (m random : List Nat) : List Nat :=
  let r := (hmac256 k.prf (random ++ slhMessage m)).take 16
  let d := slhDigest r k.publicSeed k.root (slhMessage m)
  let fors := k.fors d.2 d.1
  r ++ fors ++ k.hypertree 7 d.2 (forsFrom k.publicSeed d.2 fors d.1)

end Sys2Proof.Machine
end

