-- ==== Sys2Proof/Machine/MemoryOps.lean ====
section
/-! DEFINITION. Loads, stores, scratchpad accesses, prefetches and discards: majors 0x48 to 0x54 (R206 to R210). -/

namespace Sys2Proof.Machine

/-! ## Loads and stores (R207, R208) -/

/-- An I-format address (R206). -/
def addrI (a : BitVec 7) (i : BitVec 11) (l : Lane) : W64 := l.read a + i.signExtend 64

/-- An R-format address (R206). -/
def addrR (a b : BitVec 7) (l : Lane) : W64 := l.read a + l.read b

/-- A load word. -/
def loadWord (st : State) (fs : List Field) (d : BitVec 7) (size : Nat) (sx stream : Bool) (addr : Lane → W64) :
    Host.Outcome State Fault Refusal :=
  MemWord.exec
    { flagged := true, dooms := false, sync := none, check := fieldCheck st.curWord true fs
      access := fun l => { va := addr l, size, need := .load, code := 0 }
      stall := loadStall
      again := fun i r s => (s.replayLoad i r.lane r.access.va fun v t => setReg (i.lane r.lane) d v t, .done)
      act := fun i r s =>
        s.loadLane i r.lane { size, signExtend := sx, stream, dest := (i.lane r.lane).dest d } r.access.va r.pa r.leaf } st

/-- A store word. -/
def storeWord (st : State) (fs : List Field) (d : BitVec 7) (size : Nat) (addr : Lane → W64) :
    Host.Outcome State Fault Refusal :=
  MemWord.exec
    { flagged := false, dooms := false, sync := none, check := fieldCheck st.curWord true fs
      access := fun l => { va := addr l, size, need := .store, code := 1 }
      stall := storeStall
      again := fun i r s => (s.replayWrite i.team r.access.va (bytesOfNat size ((i.lane r.lane).read d).toNat), .done)
      act := fun i r s =>
        s.storeLane i r.lane r.access.va r.pa r.leaf (bytesOfNat size ((i.lane r.lane).read d).toNat) } st

/-- LDD. -/
def execLdd (d a : BitVec 7) (i : BitVec 11) (st : State) : Host.Outcome State Fault Refusal :=
  loadWord st [.dst d 1, .src a 1] d 8 false false (addrI a i)

/-- LDW. -/
def execLdw (d a : BitVec 7) (i : BitVec 11) (st : State) : Host.Outcome State Fault Refusal :=
  loadWord st [.dst d 1, .src a 1] d 4 false false (addrI a i)

/-- LDH. -/
def execLdh (d a : BitVec 7) (i : BitVec 11) (st : State) : Host.Outcome State Fault Refusal :=
  loadWord st [.dst d 1, .src a 1] d 2 false false (addrI a i)

/-- LDB. -/
def execLdb (d a : BitVec 7) (i : BitVec 11) (st : State) : Host.Outcome State Fault Refusal :=
  loadWord st [.dst d 1, .src a 1] d 1 false false (addrI a i)

/-- LDX. -/
def execLdx (t s : BitVec 1) (e : BitVec 2) (d a b : BitVec 7) (st : State) : Host.Outcome State Fault Refusal :=
  loadWord st [.dst d 1, .src a 1, .src b 1] d (2 ^ e.toNat) (s == 1#1) (t == 1#1) (addrR a b)

/-- STD. -/
def execStd (d a : BitVec 7) (i : BitVec 11) (st : State) : Host.Outcome State Fault Refusal :=
  storeWord st [.src d 1, .src a 1] d 8 (addrI a i)

/-- STW. -/
def execStw (d a : BitVec 7) (i : BitVec 11) (st : State) : Host.Outcome State Fault Refusal :=
  storeWord st [.src d 1, .src a 1] d 4 (addrI a i)

/-- STH. -/
def execSth (d a : BitVec 7) (i : BitVec 11) (st : State) : Host.Outcome State Fault Refusal :=
  storeWord st [.src d 1, .src a 1] d 2 (addrI a i)

/-- STB. -/
def execStb (d a : BitVec 7) (i : BitVec 11) (st : State) : Host.Outcome State Fault Refusal :=
  storeWord st [.src d 1, .src a 1] d 1 (addrI a i)

/-- STX. -/
def execStx (e : BitVec 2) (d a b : BitVec 7) (st : State) : Host.Outcome State Fault Refusal :=
  storeWord st [.src d 1, .src a 1, .src b 1] d (2 ^ e.toNat) (addrR a b)

/-! ## Scratchpad (R209) -/

/-- ALIGN, then ADDR for a scratch offset. -/
def scratchTrap (t : Team) (o : W64) (size : Nat) : Option Trap :=
  if o.toNat % size != 0 then some { cause := Cause.align, info := o }
  else if o.toNat + size > t.scratchBytes then some { cause := Cause.addr, info := o }
  else none

/-- The checks of a scratch access. -/
def scratchCheck (fs : List Field) (a b : BitVec 7) (size : Nat) (i : Issue) (l : Lane) : Option Trap :=
  (l.fieldTrap i.word fs).or (scratchTrap i.team (addrR a b l) size)

/-- Whether a thread has stores before a place in its order that are kept back (R101). -/
def State.deferredBefore (s : State) (core team gang lane q : Nat) : Bool :=
  (s.core core).stores.any fun x =>
    x.deferred && x.command.isNone && x.team == team && x.gang == gang && x.lane == lane && decide (x.seq < q)

/-- Whether what writes scratch, or a register-block slot, must wait behind a FENCE REL or AR of its thread, or a barrier
arrival: for the reads and the stores that the release puts before it (R89, R97, R256). -/
def scratchHolds (s : State) (i : Issue) (ls : List Nat) : Bool :=
  ls.any fun l =>
    !s.applied i.team.core (i.thread l).relStore
      || !s.readsBoundBefore i.cursor.team i.cursor.gang l (i.thread l).relRead
      || s.deferredBefore i.team.core i.cursor.team i.cursor.gang l (i.thread l).relRead

/-- One byte of scratch as a lane reads it: a member of an open transaction finds its log region in a layout of the
device's own. -/
def laneScratch (s : State) (i : Issue) (l a : Nat) : Byte :=
  if i.gang.inTx l && i.team.meetsLog i.cursor.gang a 1 then Config.logByte s.tick (a - i.team.logBase i.cursor.gang)
  else i.team.scratchByte a

/-- LDS. -/
def execLds (s : BitVec 1) (e : BitVec 2) (d a b : BitVec 7) (st : State) : Host.Outcome State Fault Refusal :=
  let size := 2 ^ e.toNat
  pathWord st (scratchCheck [.dst d 1, .src a 1, .src b 1] a b size) fun i ok s' =>
    s'.modGang i.cursor.team i.cursor.gang fun g => g.mapLanes ok fun l t =>
      let o := (addrR a b (i.lane l)).toNat
      setReg (i.lane l) d (loadValue size (s == 1#1) ((List.range size).map fun k => laneScratch st i l (o + k))) t

/-- STS: active lanes in ascending order; a member's store into its log region dooms the transaction. -/
def execSts (e : BitVec 2) (d a b : BitVec 7) (st : State) : Host.Outcome State Fault Refusal :=
  let size := 2 ^ e.toNat
  match st.issue with
  | none => .fault .noIssuingPath
  | some i =>
  if scratchHolds st i i.active then .next (st.hold i)
  else
  pathWord st (scratchCheck [.src d 1, .src a 1, .src b 1] a b size) fun i ok s' =>
    ok.foldl (fun s' l =>
      let o := (addrR a b (i.lane l)).toNat
      if i.gang.inTx l && i.team.meetsLog i.cursor.gang o size then
        s'.modGang i.cursor.team i.cursor.gang fun g => g.doom 5
      else
        s'.modTeam i.cursor.team fun t => t.scratchWrite o (bytesOfNat size ((i.lane l).read d).toNat)) s'

/-! ## Prefetch and discard (R210) -/

/-- The physical address of a line that a prefetch or discard names, if its translation does not fail. -/
def State.prefetchPhys (s : State) (core ctx : Nat) (va : W64) (n : Need) : Option (Nat × W64) :=
  match s.translate core ctx va n with
  | .ok pa leaf => if isRemote pa && s.target pa == .unused then none else some (pa, leaf)
  | _ => none

/-- The lanes of a prefetch or discard that miss on pages that no walk of it has found without a leaf. -/
def State.prefetchMisses (s : State) (i : Issue) (ls : List Nat) (a b : BitVec 7) (n : Need) : List (Nat × W64 × Nat) :=
  let vs := ls.map fun l => (l, addrR a b (i.lane l), 0)
  vs.filter fun v => s.translate i.team.core i.team.ctx v.2.1 n == .miss && !i.path.unmapped.contains (v.2.1.toNat / 2 ^ 16)

/-- A prefetch or discard: an effect on the core for each active thread whose translation holds. Its misses take walks
like those of any word, and may allocate (R261, R263). In a replay it does nothing: a walk could zero a page, and a replay
writes no device memory (R338). -/
def prefetchWord (st : State) (n : Need) (a b : BitVec 7) (f : Nat → W64 → State → Nat → State) : Host.Outcome State Fault Refusal :=
  match st.issue with
  | none => .fault .noIssuingPath
  | some i =>
    let check := fieldCheck st.curWord true [.src a 1, .src b 1]
    let ok := i.active.filter fun l => (check (i.lane l)).isNone
    if i.replays then .next (runWord st i check fun _ s => s)
    else
      match st.prefetchMisses i ok a b n with
      | m :: ms => .next (st.startWalks i (m :: ms) true)
      | [] => .next (runWord st i check fun ok s =>
        ok.foldl (fun s l =>
          match s.prefetchPhys i.team.core i.team.ctx (addrR a b (i.lane l)) n with
          | some (pa, leaf) => f pa leaf s i.team.core
          | none => s) s)

/-- PRFL1: the four sectors of the line, from device memory, or from the target of a line of the system window as they
come; a page whose policy excludes the L1 does not allocate (R85). -/
def execPrfl1 (a b : BitVec 7) (st : State) : Host.Outcome State Fault Refusal :=
  prefetchWord st .load a b fun pa leaf s core =>
    if pteCache leaf != 0 then s
    else
      (List.range 4).foldl (fun s k =>
        if isRemote pa then s.sendFill core ((pa / 256 * 4 + k) * 64) id else s.fillSector core (pa / 256 * 4 + k)) s

/-- PRFL2: the L2 and HBM5 hold one copy, so nothing changes. -/
def execPrfl2 (a b : BitVec 7) (st : State) : Host.Outcome State Fault Refusal :=
  prefetchWord st .load a b fun _ _ s _ => s

/-- DSCD. -/
def execDscd (a b : BitVec 7) (st : State) : Host.Outcome State Fault Refusal :=
  prefetchWord st .nothing a b fun pa _ s core => s.dropLine core pa

end Sys2Proof.Machine
end

