-- ==== Sys2Proof/Machine/Engine.lean ====
section
/-! DEFINITION. Engine commands: STQ, GO, TLWAIT and TLRD (R221 to R224), the copy and gather commands (R225 to R228)
and their faults (R329). -/

namespace Sys2Proof.Machine

/-! ## Queue registers (R221) -/

/-- STQ: the value of the highest active lane. -/
def execStq (q : BitVec 2) (a : BitVec 7) (st : State) : Host.Outcome State Fault Refusal :=
  pathWord st (fun i => i.pathTrap (fieldCheck i.word true [.src a 1]) i.active.getLast?) fun i ok s =>
    match ok.getLast? with
    | none => s
    | some l => s.modTeam i.cursor.team fun t => { t with queueRegs := t.queueRegs.set q.toNat ((i.lane l).read a) }

/-! ## Command words (Tables 9.10 to 9.12) -/

def copyOp (q0 : W64) : Nat := field q0.toNat 28 4
def copyE (q0 : W64) : Nat := 2 ^ field q0.toNat 26 2
def srcScratch (q0 : W64) : Bool := q0.getLsbD 25
def dstScratch (q0 : W64) : Bool := q0.getLsbD 24
def rowBytes (q0 : W64) : Nat := field q0.toNat 0 20
def copyRows (q3 : W64) : Nat := field q3.toNat 48 16 + 1
def srcStride (q3 : W64) : Nat := field q3.toNat 24 24
def dstStride (q3 : W64) : Nat := field q3.toNat 0 24

def gatherCount (q0 : W64) : Nat := field q0.toNat 20 20
def gatherIdx (q0 : W64) : Nat := field q0.toNat 0 20
def gatherKind (q3 : W64) : Nat := field q3.toNat 2 2
def gatherX (q3 : W64) : Nat := if gatherKind q3 == 1 then 8 else 4
def gatherE (q3 : W64) : Nat := 2 ^ field q3.toNat 0 2
def gatherShift (q3 : W64) : Nat := field q3.toNat 4 6

/-- The failed checks of a copy command by number (Table 19.5). -/
def copyChecks (q0 q1 q2 q3 : W64) : List (Nat × Bool) :=
  let op := copyOp q0
  let e := copyE q0
  let rb := rowBytes q0
  let ds := dstStride q3
  let t48 := op == 4 || op == 5
  [(1, decide (op > 5) || field q0.toNat 20 4 != 0),
   (2, rb == 0),
   (3, (op == 1 || op == 2 || op == 3 || op == 5)
        && (rb % e != 0 || ds % e != 0 || q1.toNat % e != 0 || q2.toNat % e != 0)),
   (4, (op == 0 && decide (copyRows q3 > 1) && decide (ds < rb)) || (op == 1 && decide (ds < rb))),
   (5, op == 2 && (q1 != 0#64 || srcScratch q0)),
   (6, t48 && (ds != 0 || q2.toNat % 64 != 0)),
   (7, op == 4 && e != 1),
   (8, (srcScratch q0 && decide (q1.toNat ≥ 2 ^ 20)) || (dstScratch q0 && decide (q2.toNat ≥ 2 ^ 20)))]

/-- The failed checks of a gather command by number. -/
def gatherChecks (q0 q2 q3 : W64) : List (Nat × Bool) :=
  let dst := field q2.toNat 0 20
  [(9, field q0.toNat 40 24 != 0 || field q2.toNat 20 44 != 0 || field q3.toNat 10 54 != 0),
   (10, gatherKind q3 == 3),
   (11, gatherCount q0 == 0),
   (12, gatherIdx q0 % gatherX q3 != 0),
   (13, dst % gatherE q3 != 0),
   (14, decide (gatherIdx q0 + gatherCount q0 * gatherX q3 > 2 ^ 20)
        || decide (dst + gatherCount q0 * gatherE q3 > 2 ^ 20))]

/-- Validate: the number of the first check that fails (R321). -/
def validateCommand (gather : Bool) (q0 q1 q2 q3 : W64) : Option Nat :=
  ((if gather then gatherChecks q0 q2 q3 else copyChecks q0 q1 q2 q3).find? fun c => c.2).map Prod.fst

/-! ## GO (R222) -/

def Team.q (t : Team) (k : Nat) : W64 := t.queueRegs.getD k 0#64

/-- GO: one ticket for the path. A member of an open transaction dooms it. A release waits for the lanes' reads. -/
def goWord (st : State) (gather : Bool) (d c : BitVec 7) : Host.Outcome State Fault Refusal :=
  match st.issue with
  | none => .fault .noIssuingPath
  | some i =>
    let t := i.team
    let ctx := c.toNat
    let invalid := validateCommand gather (t.q 0) (t.q 1) (t.q 2) (t.q 3)
    let check : Lane → Option Trap := fun l =>
      (l.fieldTrap i.word [.dst d 1, .idx ctx t.timelines.length]).or
        (if i.gang.inTx l.lane then none else invalid.map fun n => illopnd i.word (0xFFFFFF00 + n))
    let acting := i.active.filter fun l => !i.gang.inTx l && (check (i.lane l)).isNone
    if fenceHolds i acting || st.behindReads i acting then .next (st.hold i)
    else
      .next (runWord st i check fun ok s =>
        let s := if ok.any fun l => i.gang.inTx l then s.modGang i.cursor.team i.cursor.gang fun g => g.doom 5 else s
        let ls := ok.filter fun l => !i.gang.inTx l
        if ls.isEmpty then s
        else
          let n := ((t.timelines[ctx]?.map Timeline.issued).getD 0) + 1
          let cmd : Command :=
            { uid := s.nextUid, gang := i.cursor.gang, ctx, ticket := n, gather, q0 := t.q 0, q1 := t.q 1, q2 := t.q 2,
              q3 := t.q 3, state := .queued, elements := 0, fetched := [], kept := []
              after := (ls.map fun l => (i.thread l).seen).foldl max 0 }
          let s := (s.modTeam i.cursor.team fun t =>
            { t with
              timelines := t.timelines.modify ctx fun x => { x with issued := n }
              commands := t.commands ++ [cmd] }).bump
          s.modGang i.cursor.team i.cursor.gang fun g => g.mapLanes ls fun l th => setReg (i.lane l) d (BitVec.ofNat 64 n) th)

/-- GO.copy. -/
def execGoCopy (d c : BitVec 7) (st : State) : Host.Outcome State Fault Refusal := goWord st false d c

/-- GO.gather. -/
def execGoGather (d c : BitVec 7) (st : State) : Host.Outcome State Fault Refusal := goWord st true d c

/-! ## Timeline counters (R94, R223) -/

def Team.counter (t : Team) (ctx : Nat) : Nat := (t.timelines[ctx]?.map Timeline.counter).getD 0

/-- TLWAIT: a thread whose count the counter has not reached blocks; one that goes on acquires. -/
def execTlwait (c : BitVec 4) (a : BitVec 7) (st : State) : Host.Outcome State Fault Refusal :=
  match st.issue with
  | none => .fault .noIssuingPath
  | some i =>
    if st.behindReads i i.active then .next (st.hold i)
    else
      pathWord st (fun i l => l.fieldTrap i.word [.idx c.toNat i.team.timelines.length, .src a 1]) (fun i ok s =>
        let waits := ok.filter fun l => decide (i.team.counter c.toNat < ((i.lane l).read a).toNat)
        let s := if waits.length < ok.length then s.invalidateL1 i.team.core else s
        s.modGang i.cursor.team i.cursor.gang fun g => g.mapLanes waits fun l t =>
          { t with blocked := .tlwait c.toNat ((i.lane l).read a) })

/-- TLRD. -/
def execTlrd (c : BitVec 4) (d : BitVec 7) (st : State) : Host.Outcome State Fault Refusal :=
  pathWord st (fun i l => l.fieldTrap i.word [.idx c.toNat i.team.timelines.length, .dst d 1]) fun i ok s =>
    s.giveLogged i ok d fun _ => BitVec.ofNat 64 (i.team.counter c.toNat)

/-- A thread whose TLWAIT the counter satisfies goes on. -/
def Thread.wakeTimeline (t : Thread) (ctx n : Nat) : Thread :=
  match t.blocked with
  | .tlwait c v => if c == ctx && decide (v.toNat ≤ n) then { t with blocked := .none } else t
  | _ => t

/-- Advance a counter past every completed ticket in order; the fuel is the number of commands. -/
def counterAfter (cs : List Command) (ctx : Nat) : Nat → Nat → Nat
  | 0, n => n
  | k + 1, n =>
    if cs.any fun c => c.ctx == ctx && c.ticket == n + 1 && c.state == .done then counterAfter cs ctx k (n + 1) else n

/-- The counter of a context passes completed commands; the threads that it wakes acquire (R94). -/
def State.advanceTimeline (s : State) (team ctx : Nat) : State :=
  match s.team? team with
  | none => s
  | some t =>
    let n := counterAfter t.commands ctx t.commands.length (t.counter ctx)
    if n == t.counter ctx then s
    else
      let s := s.modTeam team fun t =>
        { t with
          timelines := t.timelines.modify ctx fun x => { x with counter := n }
          commands := t.commands.filter fun c => !(c.ctx == ctx && decide (c.ticket ≤ n))
          gangs := t.gangs.map fun g => { g with threads := g.threads.map fun th => th.wakeTimeline ctx n } }
      s.invalidateL1 t.core

/-! ## The elements of a command (R227, R228) -/

/-- A few bytes that a command writes together: where, and for each byte where it is read or what pattern it is. -/
structure Chunk where
  dst : W64
  bytes : List (W64 ⊕ Byte)
  deriving DecidableEq, Repr

/-- The pad pattern at an offset within an element. -/
def padByte (q0 : W64) (k : Nat) : Byte := BitVec.ofNat 8 (field q0.toNat (32 + 8 * (k % 4)) 8)

/-- The source byte S(i, c). -/
def srcByte (q1 q3 : W64) (i c : Nat) : W64 := q1 + BitVec.ofNat 64 (i * srcStride q3 + c)

/-- Chunks of e bytes that cover n bytes. -/
def chunkStarts (e n : Nat) : List Nat := (List.range ((n + e - 1) / e)).map (· * e)

/-- Rows of chunks at a destination stride, with the bytes from `lo` up to `hi` of each. -/
def rowChunks (q0 q2 q3 : W64) (lo hi : Nat) (f : Nat → Nat → W64 ⊕ Byte) : List Chunk :=
  let e := copyE q0
  (List.range (copyRows q3)).flatMap fun i =>
    (chunkStarts e (hi - lo)).map fun c =>
      { dst := q2 + BitVec.ofNat 64 (i * dstStride q3 + lo + c)
        bytes := (List.range (min e (hi - lo - c))).map fun b => f i (lo + c + b) }

/-- The T48 layout of a matrix of `rows` rows of `rb` bytes whose byte (i, c) is g i c, in elements of e bytes. -/
def t48Chunks (q0 q2 : W64) (e rows rb : Nat) (g : Nat → Nat → W64) : List Chunk :=
  let nr := (rows + 15) / 16
  let nc := (rb + 47) / 48
  (List.range nr).flatMap fun u => (List.range nc).flatMap fun v => (List.range 16).flatMap fun r =>
    (chunkStarts e 48).map fun c =>
      { dst := q2 + BitVec.ofNat 64 (768 * (u * nc + v) + 48 * r + c)
        bytes := (List.range e).map fun b =>
          if 16 * u + r < rows ∧ 48 * v + c + b < rb then .inl (g (16 * u + r) (48 * v + c + b)) else .inr (padByte q0 b) }

/-- The chunks of a copy command. -/
def copyChunks (q0 q1 q2 q3 : W64) : List Chunk :=
  let e := copyE q0
  let rb := rowBytes q0
  let rows := copyRows q3
  let src := fun i c => srcByte q1 q3 i c
  match copyOp q0 with
  | 0 => rowChunks q0 q2 q3 0 rb fun i c => .inl (src i c)
  | 1 =>
    rowChunks q0 q2 q3 0 rb (fun i c => .inl (src i c)) ++
      rowChunks q0 q2 q3 rb (dstStride q3) fun _ c => .inr (padByte q0 (c % e))
  | 2 => rowChunks q0 q2 q3 0 rb fun _ c => .inr (padByte q0 (c % e))
  | 3 =>
    (List.range rows).flatMap fun i => (List.range (rb / e)).map fun k =>
      { dst := q2 + BitVec.ofNat 64 (k * dstStride q3 + i * e)
        bytes := (List.range e).map fun b => .inl (src i (k * e + b)) }
  | 4 => t48Chunks q0 q2 1 rows rb src
  | _ => t48Chunks q0 q2 e (rb / e) (rows * e) fun k c => src (c / e) (k * e + c % e)

/-- The address of an element that PAD, TRANSPOSE or T48T takes whole and that is not a multiple of E. COPY and T48 move
single bytes, which lie anywhere (DEDUCED, log 35). -/
def Chunk.misaligned (c : Chunk) (q0 : W64) : Option W64 :=
  match c.bytes with
  | .inl a :: _ => if (copyOp q0 == 1 || copyOp q0 == 3 || copyOp q0 == 5) && a.toNat % copyE q0 != 0 then some a else none
  | _ => none

/-! ## Reading and writing for a command -/

/-- How a command meets one byte or one element. -/
inductive EngineEnd (α : Type) where
  | ok (s : State) (a : α)
  /-- it stops with a cause, at an address (R329) -/
  | fault (s : State) (cause : Nat) (addr : W64)
  /-- it waits for a walk, with the access code of a fault (R261) -/
  | walk (s : State) (va : W64) (access : Nat)
  /-- it waits for a granule's writer (R111) -/
  | writer (s : State) (granule : Nat)
  /-- it waits for an answer from the system window -/
  | remote (s : State)
  /-- it waits for the store path to be empty -/
  | again (s : State)

/-- The command and its team. -/
structure EngineRun where
  team : Team
  cmd : Command
  deriving DecidableEq, Repr

/-! ## Bytes that a command both reads and writes (R227) -/

/-- Whether a command writes the space that it reads. -/
def EngineRun.oneSpace (r : EngineRun) : Bool :=
  !r.cmd.gather && copyOp r.cmd.q0 != 2 && srcScratch r.cmd.q0 == dstScratch r.cmd.q0

/-- Where a byte lies: its offset in scratch, or its physical address. -/
def EngineRun.place? (r : EngineRun) (s : State) (a : W64) : Option Nat :=
  if dstScratch r.cmd.q0 then some a.toNat
  else
    match s.walkTables r.team.ctx a with
    | .leaf _ _ e => some (leafPhys e a)
    | .fault _ _ => none

/-- Whether the part of a source row from one address on, within a page of 64 KiB, holds a place. -/
def EngineRun.rowMeets (r : EngineRun) (s : State) (row page : W64) (p : Nat) : Bool :=
  match s.walkTables r.team.ctx page with
  | .leaf _ _ e =>
    let base := leafPhys e page
    decide (base ≤ p) && decide (p < base + 2 ^ 16)
      && decide ((page + BitVec.ofNat 64 (p - base) - row).toNat < rowBytes r.cmd.q0)
  | .fault _ _ => false

/-- Whether a copy command reads the byte at a place of the space it writes, under whatever address. -/
def EngineRun.readsPlace (r : EngineRun) (s : State) (p : Nat) : Bool :=
  r.oneSpace && (List.range (copyRows r.cmd.q3)).any fun i =>
    let row := srcByte r.cmd.q1 r.cmd.q3 i 0
    if dstScratch r.cmd.q0 then decide ((BitVec.ofNat 64 p - row).toNat < rowBytes r.cmd.q0)
    else
      (List.range (rowBytes r.cmd.q0 / 2 ^ 16 + 2)).any fun k =>
        r.rowMeets s row (BitVec.ofNat 64 ((row.toNat / 2 ^ 16 + k) * 2 ^ 16)) p

/-- A source byte that the command has itself covered, as it stood before. -/
def EngineRun.kept? (r : EngineRun) (s : State) (p : Nat) : Option Byte :=
  ((s.team? r.team.uid).bind fun t => t.commands.find? fun c => c.uid == r.cmd.uid).bind fun c =>
    (c.kept.find? fun x => x.1 == p).map Prod.snd

/-- A scratch byte of a command. -/
def EngineRun.scratchRead (r : EngineRun) (s : State) (o : W64) : EngineEnd Byte :=
  if o.toNat < r.team.scratchBytes then
    .ok s ((r.kept? s o.toNat).getD (((s.team? r.team.uid).map fun t => t.scratchByte o.toNat).getD 0#8))
  else .fault s Cause.addr o

/-- What the recorder reads for a command's traced access. -/
def State.engineRecorder (s : State) (t : Team) (va leaf : W64) : State :=
  if pteTracked leaf && (s.traced? t.ctx t.launch t.task).isSome then s.recorderReads t.ctx (some t.task) [.granule (granuleOf va)]
  else s

/-- A byte of device memory, bound at its home, so that the L1 keeps no older one (R101); a tracked one of the traced task is a recorded read (R108, R111). -/
def EngineRun.homeByte (r : EngineRun) (s : State) (va : W64) (pa : Nat) (leaf : W64) : EngineEnd Byte :=
  let bind := fun (s : State) =>
    if s.poisonedAt pa 1 then EngineEnd.fault s Cause.poison (BitVec.ofNat 64 (pa / 64 * 64)) else .ok (s.dropSector r.team.core (sectorOf pa)) ((r.kept? s pa).getD (s.mem.read pa))
  let s := s.engineRecorder r.team va leaf
  match if pteTracked leaf then s.traced? r.team.ctx r.team.launch r.team.task else none with
  | some t =>
    match t.readFate (granuleOf va) (pteDerived leaf) [] with
    | .order => .fault s Cause.traceorder (granuleAddr (granuleOf va))
    | .wait => .writer s (granuleOf va)
    | .proceed a => bind (s.recordRead t r.team.uid r.cmd.gang (.granule (granuleOf va)) a).1
  | none =>
    if pteDerived leaf && s.unsettled r.team.ctx && !s.poisonedAt pa 1 then
      .ok s ((s.unsettledBytes r.team.ctx (32 + va.toNat / 8) va pa 1).headD 0#8)
    else bind s

/-- A byte that a command reads from memory. -/
def EngineRun.memRead (r : EngineRun) (s : State) (va : W64) : EngineEnd Byte :=
  match s.translate r.team.core r.team.ctx va .load with
  | .miss => .walk s va 5
  | .trap t => .fault s t.cause va
  | .ok pa leaf =>
    if isRemote pa then
      match s.target pa, (r.kept? s pa).or ((r.cmd.fetched.find? fun c => c.1 == pa).map Prod.snd) with
      | .unused, _ => .fault s Cause.addr va
      | _, some b => .ok s b
      | _, none => .remote (s.sendRead pa 1 fun q => { q with command := some (r.team.uid, r.cmd.uid) })
    else r.homeByte s va pa leaf

/-- Read bytes in order. -/
def EngineRun.readAll (r : EngineRun) (read : State → W64 → EngineEnd Byte) :
    List (W64 ⊕ Byte) → State → EngineEnd (List Byte)
  | [], s => .ok s []
  | .inr b :: xs, s =>
    match r.readAll read xs s with
    | .ok s bs => .ok s (b :: bs)
    | e => e
  | .inl a :: xs, s =>
    match read s a with
    | .ok s b =>
      match r.readAll read xs s with
      | .ok s bs => .ok s (b :: bs)
      | e => e
    | .fault s c x => .fault s c x
    | .walk s v a => .walk s v a
    | .writer s g => .writer s g
    | .remote s => .remote s
    | .again s => .again s

/-- A store of a command enters the store path of its core; its gang's count is not concerned (R94), and its task's digest
only where it goes to device memory (R130). -/
def EngineRun.addStore (r : EngineRun) (s : State) (va : W64) (pa : Nat) (bs : List Byte) : State :=
  let x : StoreOp :=
    { uid := s.nextUid, team := r.team.uid, gang := r.cmd.gang, lane := 0, command := some r.cmd.uid, va, pa, data := bs,
      kind := .plain, seq := 0, digest := !isRemote pa && !inTeamPrivate r.team va, after := 0, sent := false,
      deferred := false, countGang := r.cmd.gang, pc := 0#64 }
  (s.modCore r.team.core fun c => { c with stores := c.stores ++ [x] }).bump

/-- Whether an address of a replay's command lies in device memory, as the tables now stand: its writes there are those that
a digest covers (R130, R338; DESIGN CHOICE, log 43). -/
def EngineRun.toDevice (r : EngineRun) (s : State) (va : W64) : Bool :=
  match s.walkTables r.team.ctx va with
  | .leaf _ _ e => !isRemote (leafPhys e va)
  | .fault _ _ => true

/-- A command's write of bytes that lie within one page. A traced one is applied at its home as it is made (R110), once
the store path that it travels is empty (R94). -/
def EngineRun.memWrite (r : EngineRun) (s : State) (va : W64) (bs : List Byte) : EngineEnd Unit :=
  if r.team.state == .replay then .ok (if r.toDevice s va then s.replayWrite r.team va bs else s) ()
  else
  match s.translate r.team.core r.team.ctx va .store with
  | .miss => .walk s va 6
  | .trap t => .fault s t.cause va
  | .ok pa leaf =>
    let s := s.engineRecorder r.team va leaf
    if isRemote pa && s.target pa == .unused then .fault s Cause.addr va
    else if pteTracked leaf && (s.actingTrace? r.team.ctx).isSome then
      match s.traced? r.team.ctx r.team.launch r.team.task with
      | none => .fault s Cause.edit va
      | some t =>
        match t.storeFate (granuleOf va) (pteDerived leaf) with
        | .conflict => .fault s Cause.traceconflict va
        | .order => .fault s Cause.traceorder (granuleAddr (granuleOf va))
        | .full => .ok (r.addStore (s.failTrace r.team.ctx Cause.tracefull 16#64 false) va pa bs) ()
        | .apply =>
          if !s.pathEmpty r.team.core then .again s
          else
          let s := ((s.tracedStore t va pa bs).modCore r.team.core fun c => c.l1Store pa bs).touchLine pa
          .ok (if inTeamPrivate r.team va then s else s.modTask r.team.task fun k => k.wrote va bs) ()
    else .ok (r.addStore s va pa bs) ()

/-- Write bytes one by one. -/
def EngineRun.writeEach (r : EngineRun) : W64 → List Byte → State → EngineEnd Unit
  | _, [], s => .ok s ()
  | va, b :: bs, s =>
    match r.memWrite s va [b] with
    | .ok s () => r.writeEach (va + 1) bs s
    | e => e

/-- Write an element to memory: at once where it is naturally aligned (R227). -/
def EngineRun.writeMem (r : EngineRun) (s : State) (va : W64) (bs : List Byte) : EngineEnd Unit :=
  if bs.length ∈ [1, 2, 4, 8] ∧ va.toNat % bs.length = 0 then r.memWrite s va bs else r.writeEach va bs s

/-- Write an element to scratch. -/
def EngineRun.writeScratch (r : EngineRun) (s : State) (o : W64) (bs : List Byte) : EngineEnd Unit :=
  if o.toNat + bs.length ≤ r.team.scratchBytes then
    .ok (s.modTeam r.team.uid fun t => t.scratchWrite o.toNat bs) ()
  else .fault s Cause.addr o

/-- What an engine command does with what a step before gave. -/
def EngineEnd.bind {α β : Type} (e : EngineEnd α) (f : State → α → EngineEnd β) : EngineEnd β :=
  match e with
  | .ok s a => f s a
  | .fault s c x => .fault s c x
  | .walk s v a => .walk s v a
  | .writer s g => .writer s g
  | .remote s => .remote s
  | .again s => .again s

/-- A replay takes an element from its log; one that was not logged shows that it has diverged (R338). -/
def EngineRun.loggedElement (r : EngineRun) (s : State) (i n : Nat) : EngineEnd (List Byte) :=
  let mine := fun (e : AuditEntry) =>
    match e with
    | .engine c t k _ => c == r.cmd.ctx && t == r.cmd.ticket && k == i
    | _ => false
  match s.takeEntry r.team.uid mine with
  | (s, some (.engine _ _ _ v)) => .ok s (bytesOfNat n v.toNat)
  | (s, _) => .fault s Cause.digest 0#64

/-- The bytes of element i as its source gives them. -/
def EngineRun.source (r : EngineRun) (s : State) (scratch : Bool) (i : Nat) (bytes : List (W64 ⊕ Byte)) :
    EngineEnd (List Byte) :=
  if scratch then r.readAll r.scratchRead bytes s
  else if r.team.state == .replay && bytes.any Sum.isLeft then r.loggedElement s i bytes.length
  else r.readAll r.memRead bytes s

/-- The auditor logs an element that came from memory (R337). -/
def EngineRun.logged (r : EngineRun) (s : State) (i : Nat) (bs : List Byte) : State :=
  s.auditLog r.team.uid (.engine r.cmd.ctx r.cmd.ticket i (BitVec.ofNat 64 (natOfBytes bs)))

/-- The byte at a place as it stands, if it need not come from the system window first. -/
def EngineRun.standing (r : EngineRun) (s : State) (p : Nat) : EngineEnd Byte :=
  if dstScratch r.cmd.q0 then .ok s (((s.team? r.team.uid).map fun t => t.scratchByte p).getD 0#8)
  else if isRemote p then
    match r.cmd.fetched.find? fun c => c.1 == p with
    | some c => .ok s c.2
    | none => .remote (s.sendRead p 1 fun q => { q with command := some (r.team.uid, r.cmd.uid) })
  else .ok s (s.mem.read p)

/-- Keep source bytes that an element is about to cover. -/
def EngineRun.keep (r : EngineRun) : List Nat → State → EngineEnd Unit
  | [], s => .ok s ()
  | p :: ps, s =>
    if (r.kept? s p).isSome then r.keep ps s
    else
      (r.standing s p).bind fun s b =>
        r.keep ps (s.modTeam r.team.uid fun t =>
          { t with commands := t.commands.map fun c => if c.uid == r.cmd.uid then { c with kept := (p, b) :: c.kept } else c })

/-- The bytes of a chunk that the command also reads, by where they lie in it and where in the space (R227). -/
def EngineRun.overlapping (r : EngineRun) (s : State) (c : Chunk) : List (Nat × Nat) :=
  if r.oneSpace then
    (List.range c.bytes.length).filterMap fun k =>
      ((r.place? s (c.dst + BitVec.ofNat 64 k)).filter (r.readsPlace s)).map fun p => (k, p)
  else []

/-- Element i of a copy command. A byte that the command also reads receives an unspecified value, and is kept for what
is still to be read of it. -/
def EngineRun.copyElement (r : EngineRun) (s : State) (i : Nat) (c : Chunk) : EngineEnd Unit :=
  match c.misaligned r.cmd.q0 with
  | some a => .fault s Cause.align a
  | none =>
    (r.source s (srcScratch r.cmd.q0) i c.bytes).bind fun s bs =>
      let met := r.overlapping s c
      (r.keep (met.map Prod.snd) s).bind fun s () =>
        let out := bs.mapIdx fun k b =>
          if met.any fun x => x.1 == k then Config.overlapByte r.cmd.uid (c.dst + BitVec.ofNat 64 k).toNat else b
        (if dstScratch r.cmd.q0 then r.writeScratch s c.dst out else r.writeMem s c.dst out).bind fun s () =>
          .ok (if !srcScratch r.cmd.q0 && c.bytes.any Sum.isLeft then r.logged s i bs else s) ()

/-- The address of element i of a gather command. -/
def EngineRun.gatherAddr (r : EngineRun) (s : State) (i : Nat) : W64 :=
  let x := gatherX r.cmd.q3
  let v := ((s.team? r.team.uid).map fun t => natOfBytes (t.scratchRead (gatherIdx r.cmd.q0 + i * x) x)).getD 0
  let j : W64 := if gatherKind r.cmd.q3 == 2 then toW64 (signExtend v 32) else BitVec.ofNat 64 v
  r.cmd.q1 + (j <<< gatherShift r.cmd.q3)

/-- One element of a gather command. -/
def EngineRun.gatherElement (r : EngineRun) (s : State) (i : Nat) : EngineEnd Unit :=
  let x := gatherX r.cmd.q3
  let e := gatherE r.cmd.q3
  let dst : W64 := BitVec.ofNat 64 (field r.cmd.q2.toNat 0 20 + i * e)
  if gatherIdx r.cmd.q0 + (i + 1) * x > r.team.scratchBytes then
    .fault s Cause.addr (BitVec.ofNat 64 (gatherIdx r.cmd.q0 + i * x))
  else
    let a := r.gatherAddr s i
    if a.toNat % e != 0 then .fault s Cause.align a
    else
      (r.source s false i ((List.range e).map fun b => .inl (a + BitVec.ofNat 64 b))).bind fun s bs =>
        (r.writeScratch s dst bs).bind fun s () => .ok (r.logged s i bs) ()

/-- The command of a name, with its team. -/
def State.command? (s : State) (cmd : Nat) : Option EngineRun :=
  s.teams.findSome? fun t => (t.commands.find? fun c => c.uid == cmd).map fun c => { team := t, cmd := c }

/-- Change a command. -/
def State.modCommand (s : State) (team cmd : Nat) (f : Command → Command) : State :=
  s.modTeam team fun t => { t with commands := t.commands.map fun c => if c.uid == cmd then f c else c }

/-- A command stops, and its team is killed (R329): info holds the ticket, addr the faulting address. In a replay it
has diverged. -/
def State.stopCommand (s : State) (r : EngineRun) (cause : Nat) (addr : W64) : State :=
  if r.team.state == .replay then s.endReplay r.team.uid false
  else
  (s.modCommand r.team.uid r.cmd.uid fun c => { c with state := .stopped }).killTeam r.team.uid
    { cause, firstCause := 0, info := BitVec.ofNat 64 r.cmd.ticket, addr, pc := 0#64, lanes := 0#32, kind := 0,
      slot := ((r.team.gangs[r.cmd.gang]?).map Gang.slot).getD 0, silent := false }

/-! ## Running a command -/

/-- Perform elements until one does not go on; how many are then done. -/
def runElements (f : State → Nat → EngineEnd Unit) : List Nat → State → EngineEnd Unit × Nat
  | [], s => (.ok s (), 0)
  | i :: is, s =>
    match f s i with
    | .ok s () =>
      let q := runElements f is s
      (q.1, q.2 + 1)
    | e => (e, 0)

/-- The number of elements of a command, and one of them. -/
def EngineRun.count (r : EngineRun) : Nat :=
  if r.cmd.gather then gatherCount r.cmd.q0 else (copyChunks r.cmd.q0 r.cmd.q1 r.cmd.q2 r.cmd.q3).length

def EngineRun.element (r : EngineRun) (s : State) (i : Nat) : EngineEnd Unit :=
  let r := if i == r.cmd.elements then r else { r with cmd := { r.cmd with fetched := [] } }
  if r.cmd.gather then r.gatherElement s i
  else
    match (copyChunks r.cmd.q0 r.cmd.q1 r.cmd.q2 r.cmd.q3)[i]? with
    | some c => r.copyElement s i c
    | none => .ok s ()

/-- Whether stores of a command are still on their way. -/
def State.commandStores (s : State) (core cmd : Nat) : Bool := (s.core core).stores.any fun x => x.command == some cmd

/-- A command whose writes have been made and acknowledged completes (R94). -/
def State.finishCommand (s : State) (team cmd : Nat) : State :=
  match s.team? team with
  | none => s
  | some t =>
    match t.commands.find? fun c => c.uid == cmd with
    | some c =>
      if c.state == .written && !s.commandStores t.core cmd then
        (s.modCommand team cmd fun c => { c with state := .done }).advanceTimeline team c.ctx
      else s
    | none => s

/-- Whether a page fault is held rather than raised at once (R310). -/
def State.faultRoom (s : State) (core : Nat) : Bool :=
  s.fq.configured && decide ((s.faults.filter fun f => f.core / 72 == core / 72).length < 1024)

end Sys2Proof.Machine
end

