-- ==== Sys2Proof/Machine/Tx.lean ====
section
/-! DEFINITION. Transactions: op 0x61 (R96, R219, R220). -/

namespace Sys2Proof.Machine

/-! ## Committing (R96, R330) -/

/-- What a commit has been told of the system window. -/
def Tx.values (x : Tx) : List (Nat × W64) :=
  match x.commit with
  | .validating _ vs => vs
  | .writing => []

/-- Whether a logged read still matches, at its home or by what its target has answered. -/
def State.readMatches (s : State) (x : Tx) (r : Nat × W64) : Bool :=
  if isRemote r.1 then x.values.any fun v => v == r else s.homeRead r.1 8 == r.2.toNat

/-- Apply one logged write, byte by byte under its mask. A write of the system window leaves for its target: as one
request, or as one for each byte (DESIGN CHOICE, log 24). -/
def State.applyWrite (s : State) (team gang : Nat) (w : Nat × W64 × W64 × BitVec 8) : State :=
  let byte := fun k => BitVec.ofNat 64 (field w.2.2.1.toNat (8 * k) 8)
  let send := fun (s : State) (pa n : Nat) (v : W64) =>
    s.sendRequest pa 1 (requestFlit n 0 v 0#64) fun r => { r with commit := some (team, gang) }
  if isRemote w.1 && w.2.2.2 == 0xFF#8 then send s w.1 8 w.2.2.1
  else
    (List.range 8).foldl (fun s k =>
      if w.2.2.2.getLsbD k then
        (if isRemote w.1 then send s (w.1 + k) 1 (byte k) else s.deviceWrite (w.1 + k) [(byte k).setWidth 8])
      else s) s

/-- The bytes of a logged write as a task's digest sees them. -/
def Task.wroteMasked (t : Task) (w : Nat × W64 × W64 × BitVec 8) : Task :=
  (List.range 8).foldl (fun t k =>
    if w.2.2.2.getLsbD k then t.wrote (w.2.1 + BitVec.ofNat 64 k) [BitVec.ofNat 8 (field w.2.2.1.toNat (8 * k) 8)] else t) t

/-- The code with which a transaction ends when its log is validated now: 0 if it commits. -/
def State.validate (s : State) (x : Tx) : Nat :=
  match x.doom with
  | some c => c
  | none =>
    if x.reads.any (fun r => !isRemote r.1 && s.poisonedAt r.1 8)
        || x.writes.any (fun w => !isRemote w.1 && s.poisonedAt w.1 8) then 10
    else if x.reads.all (s.readMatches x) then 0
    else 1

def Gang.setTx (g : Gang) (x : Tx) : Gang := { g with tx := some x }

/-- Ask again for what a log has read of the system window. -/
def State.askTx (s : State) (team gang : Nat) (x : Tx) : State :=
  (x.reads.filter fun r => isRemote r.1).foldl (fun s r =>
    s.sendRead r.1 8 fun q => { q with commit := some (team, gang) })
    (s.modGang team gang fun g => g.setTx { x with commit := .validating true x.values })

/-- A commit's writes are applied, with its task's digest (R96, R130). -/
def State.writeTx (s : State) (t : Team) (gang : Nat) (x : Tx) : State :=
  (x.writes.foldl (fun s w => s.applyWrite t.uid gang w) s).modTask t.task fun k => x.writes.foldl Task.wroteMasked k

/-- Whether the commit units wait for answers of the system window to a gang's commit. -/
def State.txAwaits (s : State) (team gang : Nat) : Bool :=
  s.remotes.any fun r => r.commit == some (team, gang) && r.reader.isNone

/-- The commit units lock, validate, and commit or abort a gang's transaction; a commit acquires (R95, R96). A log that
names the system window is validated by what its targets answer, and has ended once they have acknowledged its writes. -/
def State.commitTx (s : State) (team gang : Nat) : State :=
  match s.team? team, (s.gang? team gang).bind Gang.tx with
  | some t, some x =>
    if x.ended.isSome || s.txAwaits team gang then s
    else
      match x.commit with
      | .writing => (s.modGang team gang fun g => g.setTx (x.finish 0)).invalidateL1 t.core
      | .validating asked _ =>
        if !asked && x.doom.isNone && x.reads.any fun r => isRemote r.1 then s.askTx team gang x
        else
          let code := s.validate x
          if code != 0 then s.modGang team gang fun g => g.setTx (x.finish code)
          else if x.writes.any fun w => isRemote w.1 then
            (s.writeTx t gang x).modGang team gang fun g => g.setTx { x with commit := .writing }
          else ((s.writeTx t gang x).modGang team gang fun g => g.setTx (x.finish 0)).invalidateL1 t.core
  | _, _ => s

/-- The status that a thread's TXC returns once its transaction has ended, be it an earlier one of the gang; code 7
where it is no member's (R220). -/
def Gang.txcStatus (g : Gang) (l : Nat) : W64 :=
  let late := ((g.lateTx.find? fun x => x.1 == l).map Prod.snd).getD 7#64
  match g.tx with
  | some x => if x.members.getLsbD l then x.ended.getD late else late
  | none => late

/-! ## The four instructions (Table 9.7) -/

/-- Whether the gang's transaction is open, its log not yet sent. -/
def Gang.txOpen (g : Gang) : Bool :=
  match g.tx with
  | some x => x.ended.isNone && !x.sent
  | none => false

/-- Whether the log of the gang's transaction is with the commit units. -/
def Gang.txSent (g : Gang) : Bool :=
  match g.tx with
  | some x => x.ended.isNone && x.sent
  | none => false

/-- A word of the transaction unit waits while a log is with the commit units. -/
def txWord (st : State) (check : Issue → Lane → Option Trap) (act : Issue → List Nat → State → State) :
    Host.Outcome State Fault Refusal :=
  match st.issue with
  | none => .fault .noIssuingPath
  | some i => if i.gang.txSent then .next (st.hold i) else pathWord st check act

/-- A transaction as it opens. -/
def Tx.fresh (members : W32) : Tx :=
  { members, reads := [], writes := [], laneWrites := [], commit := .validating false [], doom := none, user := 0#8
    sent := false, ended := none }

/-- A transaction opens: the members of the one before keep its ending status until they join another (R220). -/
def Gang.openTx (g : Gang) (members : W32) : Gang :=
  let late := (match g.tx with
    | some x => (lanesOf x.members).map fun l => (l, x.ended.getD 7#64)
    | none => []) ++ g.lateTx
  { g with tx := some (Tx.fresh members), lateTx := late.filter fun x => !members.getLsbD x.1 }

/-- TXB. -/
def execTxb (st : State) : Host.Outcome State Fault Refusal :=
  txWord st (fun i _ =>
      if 16384 * i.team.scratchUnits < 16384 * (i.cursor.gang + 1) then some (illopnd i.word 0) else none)
    fun i ok s =>
      if ok.isEmpty then s
      else
        if i.gang.txOpen then s.modGang i.cursor.team i.cursor.gang fun g => g.doom 9
        else
          (s.modTeam i.cursor.team fun t => t.touchLog i.cursor.gang s.tick).modGang i.cursor.team i.cursor.gang fun g =>
            g.openTx (maskOf ok)

/-- TXA: the user code is that of the lowest active lane. -/
def execTxa (a : BitVec 7) (st : State) : Host.Outcome State Fault Refusal :=
  txWord st (fun i => i.pathTrap (fieldCheck i.word true [.src a 1]) i.active.head?) fun i ok s =>
    match ok with
    | [] => s
    | l :: _ =>
      s.modGang i.cursor.team i.cursor.gang fun g =>
        if g.txOpen then
          { g with tx := g.tx.map fun x => ({ x with user := ((i.lane l).read a).setWidth 8 } : Tx).finish 4 }
        else g

/-- Table 9.8 in the form that TXS reads. -/
def Gang.txState (g : Gang) : W64 :=
  match g.tx with
  | none => 0#64
  | some x =>
    match x.ended, x.doom with
    | some v, _ => v ||| 0x30000#64
    | none, none => x.status 1 0
    | none, some c => x.status 2 c

/-- TXS. -/
def execTxs (d : BitVec 7) (st : State) : Host.Outcome State Fault Refusal :=
  txWord st (fun i => fieldCheck i.word true [.dst d 1]) fun i ok s =>
    s.modGang i.cursor.team i.cursor.gang fun g => g.mapLanes ok fun l t => setReg (i.lane l) d g.txState t

/-- Whether some lane of the word is a member of the open transaction. -/
def Gang.txMembers (g : Gang) (ls : List Nat) : Bool := ls.any fun l => g.inTx l

/-- Whether a path holds every member that has not exited (R220). -/
def Gang.holdsMembers (g : Gang) (lanes : W32) : Bool :=
  match g.tx with
  | some x => x.members &&& g.live &&& ~~~lanes == 0#32
  | none => true

/-- The log of the open transaction leaves for the commit units, or the transaction aborts with code 8. -/
def Gang.sendLog (g : Gang) (lanes : W32) : Gang :=
  if g.holdsMembers lanes then { g with tx := g.tx.map fun x => { x with sent := true } } else g.abortTx 8

/-- TXC: the log leaves after the gang's stores have been acknowledged (R95), outside DET at the word, under DET at its
grant; each lane's status is then pending. -/
def execTxc (d : BitVec 7) (st : State) : Host.Outcome State Fault Refusal :=
  match st.issue with
  | none => .fault .noIssuingPath
  | some i =>
    let ok := i.active.filter fun l => (fieldCheck i.word true [.dst d 1] (i.lane l)).isNone
    let bad := i.active.filterMap fun l => (fieldCheck i.word true [.dst d 1] (i.lane l)).map fun t => (l, t)
    let commits := i.gang.txMembers ok
    if i.gang.txSent || (commits &&
        st.releaseWaits i ok) then .next (st.hold i)
    else
      let s := st.beginWord i
      if i.launch.det && commits && i.gang.holdsMembers i.path.lanes then
        .next ((s.raiseAll i bad).stopAt i [(ok.headD 0, .txc (ok.map fun l => (l, (i.lane l).dest d)))])
      else
        let s := s.modGang i.cursor.team i.cursor.gang fun g => g.issueFlag i.path
        let s := if commits then s.modGang i.cursor.team i.cursor.gang fun g => g.sendLog i.path.lanes else s
        let s := ok.foldl (fun s l =>
          s.addOp i l (.txc ((i.lane l).dest d)
            (if (s.gangNow i).txSent && i.gang.inTx l then none else some ((s.gangNow i).txcStatus l)))) s
        .next ((s.raiseAll i bad).retireWord i)

end Sys2Proof.Machine
end

