-- ==== Sys2Proof/Machine/Completion.lean ====
section
/-! DEFINITION. The steps in which loads, atomics, stores, observations, claims, commits and spawns come to their ends
(R86, R87, R92, R96, R138, R215, R245, R247, R249). -/

namespace Sys2Proof.Machine

/-! ## Results -/

/-- A result reaches the thread of an operation, unless it is discarded, and the operation ends (R138, R154, R303). -/
def State.deliver (s : State) (o : Op) (f : Thread → Thread) : State :=
  (if o.live then s.modThread o.team o.gang o.lane f else s).endOp o

/-! ## LOAD_COMPLETE (R86, R87, R328) -/

/-- Whether something comes before a pending load: an access of its thread or of a lower lane to its bytes, stores that
its thread has seen, or what a CLAIM or TXC returns (R87, R95, R208). -/
def State.loadWaits (s : State) (o : Op) (r : LoadReq) : Bool :=
  s.pendsBefore o.core o.team o.gang o.lane o.seq r.pa r.size false
    || s.laneBefore o.team o.gang o.batch o.lane o.pc r.pa r.size
    || !s.applied o.core o.after || s.acquires o.team o.gang o.lane o.seq

/-- Whether a request of a pending operation is on its way. -/
def State.asked (s : State) (o : Op) : Bool := s.remotes.any fun r => r.op == some o.uid

/-- A load of the system window leaves for its target, unless own stores supply its bytes or the L1 has come to hold its
sector. -/
def State.askLoad (s : State) (o : Op) (r : LoadReq) : State :=
  match forwardAll (s.ownStores o.core o.team o.gang o.lane o.seq) r.pa r.size with
  | some bs => s.bindTo o r bs
  | none =>
    if r.allocate then s.sendFill o.core r.pa fun q => { q with op := some o.uid }
    else s.sendRead r.pa r.size fun q => { q with op := some o.uid }

/-- LOAD_COMPLETE: a load that has not bound binds at its home, or leaves for its target, when nothing comes before it;
one that has bound writes its destination. A load of the system window binds with its response. -/
def execLoadComplete (op : Nat) (st : State) : Host.Outcome State Fault Refusal :=
  match st.op? op with
  | none => .fault .notDue
  | some o =>
    match o.kind with
    | .load r =>
      match r.bound with
      | some v => .next (st.deliver o fun t => t.write r.dest v)
      | none =>
        if st.loadWaits o r then .fault .notDue
        else if isRemote r.pa then (if st.asked o then .fault .notDue else .next (st.askLoad o r))
        else .next (st.bindLoad o r)
    | _ => .fault .notDue

/-! ## ATOMIC_COMPLETE (R92) -/

/-- Perform a pending atomic at its sync engine. -/
def State.performOp (s : State) (o : Op) (a : SyncAct) : State :=
  let s := s.dropSector o.core (sectorOf a.phys)
  match s.performAtomic a with
  | .poisoned => s.poisonLoad o a.phys
  | .done s old sat fp =>
    (s.modOp o.uid fun o => { o with kind := .returned a.dest old sat fp }).settleReleases o.team o.gang

/-- Whether something comes before a pending atomic: a read of its thread, an access of its thread or of a lower lane to
its bytes, stores that a release or an acquire puts before it, or what a CLAIM or TXC returns (R87, R89, R95, R212). -/
def State.atomicWaits (s : State) (o : Op) (a : SyncAct) : Bool :=
  s.laneBefore o.team o.gang o.batch o.lane o.pc a.phys a.size || !s.readsBoundBefore o.team o.gang o.lane o.seq
    || s.pendsBefore o.core o.team o.gang o.lane o.seq a.phys a.size true
    || !s.applied o.core o.after || s.acquires o.team o.gang o.lane o.seq

/-- ATOMIC_COMPLETE: when nothing comes before it the operation is performed at its engine, or leaves for its target; one
that has been performed returns its old value. -/
def execAtomicComplete (op : Nat) (st : State) : Host.Outcome State Fault Refusal :=
  match st.op? op with
  | none => .fault .notDue
  | some o =>
    match o.kind with
    | .returned d old sat fp => .next (st.deliver o fun t => t.takeAtomic d old sat fp)
    | .atomic a =>
      if st.atomicWaits o a then .fault .notDue
      else if isRemote a.phys then
        (if st.asked o then .fault .notDue
         else .next (st.sendRequest a.phys 2 a.flit fun q => { q with op := some o.uid }))
      else .next (st.performOp o a)
    | _ => .fault .notDue

/-! ## STORE_ACKNOWLEDGE (R86, R89) -/

/-- A store of a gang is acknowledged: when none is left, its fences' releases are complete. -/
def Gang.acknowledge (g : Gang) : Gang :=
  if g.unacked ≤ 1 then { g with unacked := 0, threads := g.threads.map fun t => { t with relHold := false } }
  else { g with unacked := g.unacked - 1 }

/-- Whether the loads of a core's thread may now bind which waited for an entry that has left the path. -/
def State.completesOrder (s : State) (core : Nat) (x : StoreOp) : Bool :=
  s.teams.any fun t => t.core == core && t.gangs.any fun g => g.threads.any fun th =>
    decide (x.uid < th.seen) && s.applied core th.seen

/-- An acknowledged entry of a store path leaves it, and those who waited for it go on. Where it was the last that a
FENCE AR had to see, the L1 is invalidated again before the thread's later loads bind (R89). -/
def State.popStore (s : State) (core : Nat) (x : StoreOp) : State :=
  let s := s.modCore core fun c => { c with stores := c.stores.filter fun y => y.uid != x.uid }
  let s := if s.completesOrder core x then s.invalidateL1 core else s
  match x.command with
  | some cmd => s.finishCommand x.team cmd
  | none => (s.modGang x.team x.countGang Gang.acknowledge).settleReleases x.team x.gang

/-- The bytes of a store as its task's digest counts them. -/
def State.countWrite (s : State) (x : StoreOp) : State :=
  match s.team? x.team with
  | some t => if x.digest then s.modTask t.task fun k => k.wrote x.va x.data else s
  | none => s

def State.modStore (s : State) (core uid : Nat) (f : StoreOp → StoreOp) : State :=
  s.modCore core fun c => { c with stores := c.stores.map fun y => if y.uid == uid then f y else y }

/-- A store that its core applies to the L1: the bytes of a sector that is there, and of fills still on their way
(R86). -/
def State.applyL1 (s : State) (core : Nat) (x : StoreOp) : State :=
  { s.modCore core fun c => c.l1Store x.pa x.data with
    remotes := s.remotes.map fun r =>
      if sectorOf r.pa == sectorOf x.pa && (r.fill == some core || ((r.op.bind s.op?).map Op.core) == some core) then
        { r with late := r.late ++ [x] }
      else r }

/-- Whether an entry is the oldest in its path. -/
def State.headStore (s : State) (core : Nat) (x : StoreOp) : Bool :=
  (((s.core core).stores.find? fun y => !y.deferred).map StoreOp.uid) == some x.uid

/-- An entry's home has accepted it: it is acknowledged (R86). At the head of the path the core applies it to the L1;
where an older entry, whose home is slower, has yet to be applied, its sector leaves the L1, and an absent sector has
nothing to update. -/
def State.acceptStore (s : State) (core : Nat) (x : StoreOp) : State :=
  let s := if x.kind.reduces then s else (s.applyL1 core x).countWrite x
  let s := if s.headStore core x && !x.kind.reduces then s else s.dropSector core (sectorOf x.pa)
  s.popStore core x

/-- What a store or reduction does at its home in this device. -/
def State.applyStore (s : State) (core : Nat) (x : StoreOp) : State :=
  match x.kind with
  | .plain => (s.deviceWrite x.pa x.data).acceptStore core x
  | .edit ctx => ((s.writeMarking ctx x.va x.pa x.data none).touchLine x.pa).acceptStore core x
  | .reduce op =>
    match s.performAtomic (.reduce op x.data.length x.va x.pa (BitVec.ofNat 64 (natOfBytes x.data))) with
    | .poisoned =>
      (if ((s.team? x.team).bind Team.kill).isNone then s.consumePoison x.team x.gang x.lane x.pa x.pc else s).acceptStore core x
    | .done s _ _ _ => s.acceptStore core x

/-- A store of the system window leaves for its target. -/
def State.sendStore (s : State) (core : Nat) (x : StoreOp) : State :=
  let v : W64 := BitVec.ofNat 64 (natOfBytes x.data)
  let s := s.modStore core x.uid fun y => { y with sent := true }
  match x.kind with
  | .plain | .edit _ => s.sendRequest x.pa 1 (requestFlit x.data.length 0 v 0#64) fun r => { r with store := some (core, x.uid) }
  | .reduce op =>
    s.sendRequest x.pa 2 (requestFlit x.data.length (requestReduce op) v 0#64) fun r => { r with store := some (core, x.uid) }

/-- Whether an entry must stay behind an older one: the path carries its entries in order to one location, and behind what
its thread has released; entries for other locations may arrive in any order (R86, R89, R284). -/
def StoreOp.follows (x y : StoreOp) : Bool :=
  !y.deferred && decide (y.uid < x.uid) && (decide (y.uid < x.after) || overlaps y.pa y.data.length x.pa x.data.length)

/-- Whether an entry may not reach its home yet: an earlier read of its thread has not bound (R87), or an older entry
comes first. -/
def State.storeWaits (s : State) (core : Nat) (x : StoreOp) : Bool :=
  (x.command.isNone && !s.readsBoundBefore x.team x.gang x.lane x.seq) || (s.core core).stores.any x.follows

/-- STORE_ACKNOWLEDGE: an entry of a core's store path reaches its home. -/
def execStoreAcknowledge (site : StoreSite) (st : State) : Host.Outcome State Fault Refusal :=
  match (st.core site.core).stores.find? fun x => x.uid == site.store with
  | none => .fault .notDue
  | some x =>
    if x.deferred || x.sent || st.storeWaits site.core x then .fault .notDue
    else if isRemote x.pa then .next (st.sendStore site.core x)
    else .next (st.applyStore site.core x)

/-! ## WAITF_OBSERVATION (R215) -/

/-- An observation of a value: the thread goes on with it, or waits for the next write to the line. No write to a line of
another device is seen here, so outside DET an observation of the system window is repeated at any time. -/
def Thread.observe (t : Thread) (v : W64) (again : Bool) : Thread :=
  match t.blocked with
  | .waitf c va pa b d _ pc =>
    if waitfHolds c v b then { t.write d v with blocked := .none } else { t with blocked := .waitf c va pa b d again pc }
  | _ => t

/-- An observation of the system window has been sent. -/
def Thread.watch (t : Thread) : Thread :=
  match t.blocked with
  | .waitf c va pa b d _ pc => { t with blocked := .waitf c va pa b d false pc }
  | _ => t

/-- Whether a request of a thread's WAITF is on its way. -/
def State.watching (s : State) (team gang lane : Nat) : Bool := s.remotes.any fun r => r.watcher == some (team, gang, lane)

/-- An observation has bound past the L1, which keeps no older sector (R101, R215). -/
def State.observed (s : State) (team gang lane pa : Nat) (v : W64) (again : Bool) : State :=
  let s := s.modThread team gang lane fun t => t.observe v again
  match s.team? team with
  | some t => s.dropSector t.core (sectorOf pa)
  | none => s

/-- The address of the WAITF that a thread waits at. -/
def Thread.waitfWord (t : Thread) : W64 :=
  match t.blocked with
  | .waitf _ _ _ _ _ _ pc => pc
  | _ => t.place

def State.waitfWord (s : State) (team gang lane : Nat) : W64 := ((s.thread? team gang lane).map Thread.waitfWord).getD 0#64

/-- One observation of a blocked thread. -/
def State.observeNow (s : State) (team gang lane pa : Nat) : State :=
  if isRemote pa then
    (s.modThread team gang lane Thread.watch).sendRead pa 8 fun r => { r with watcher := some (team, gang, lane) }
  else if s.poisonedAt pa 8 then s.consumePoison team gang lane pa (s.waitfWord team gang lane)
  else s.observed team gang lane pa (BitVec.ofNat 64 (s.homeRead pa 8)) false

/-- WAITF_OBSERVATION: outside DET, at first and after each write to the line. -/
def execWaitfObservation (team gang lane : Nat) (st : State) : Host.Outcome State Fault Refusal :=
  match st.team? team, (st.thread? team gang lane).map Thread.blocked with
  | some t, some (.waitf _ _ pa _ _ true _) =>
    if t.state != .running || st.detLaunch t.launch || st.watching team gang lane || !st.observes t.core team gang lane pa then
      .fault .notDue
    else .next (st.observeNow team gang lane pa)
  | _, _ => .fault .notDue

/-! ## CLAIM_RESULT_DELIVERY (R127, R249) -/

/-- A thread no longer waits for a CLAIM, though it may wait for another of the same clause. -/
def Thread.claimOver (t : Thread) (op : Nat) (other : Option Nat) : Thread :=
  let after : Blocked := match other with
    | some n => .claim n
    | none => .none
  let rest := fun (b : Blocked) => if b == .claim op then after else b
  { t with blocked := rest t.blocked, atRetire := rest t.atRetire, trapWait := rest t.trapWait }

/-- Another CLAIM of the thread that has stood in an entry's queue and whose result has yet to be delivered. -/
def State.otherClaim (s : State) (o : Op) : Option Nat :=
  (s.ops.find? fun p => p.queued && p.team == o.team && p.gang == o.gang && p.lane == o.lane && p.live && p.uid != o.uid).map
    Op.uid

/-- A CLAIM's result reaches its thread; DONE acquires (R95). -/
def State.deliverClaim (s : State) (o : Op) (status handle : Dest) (code : Nat) (h : W64) : State :=
  let s := if code == 0 && o.live then
      (match s.team? o.team with
       | some t => s.invalidateL1 t.core
       | none => s)
    else s
  (s.deliver o fun t => (t.write status (BitVec.ofNat 64 code)).write handle (if code == 0 then h else 0#64)).modThread
    o.team o.gang o.lane fun t => t.claimOver o.uid (s.otherClaim o)

/-- CLAIM_RESULT_DELIVERY: a SAVED team's results wait for its restore, and under DET a queued thread's for its
grant. -/
def execClaimResultDelivery (op : Nat) (st : State) : Host.Outcome State Fault Refusal :=
  match st.op? op with
  | none => .fault .notDue
  | some o =>
    match o.kind, st.team? o.team with
    | .claim _ d h (some (code, v)), some t =>
      if t.state == .saved || (o.queued && o.live && st.detLaunch t.launch) then .fault .notDue
      else .next (st.deliverClaim o d h code v)
    | _, _ => .fault .notDue

/-! ## TXC_COMPLETE (R96) -/

/-- The gang's transaction has ended: its threads' TXCs have their status. -/
def State.answerTxc (s : State) (team gang : Nat) : State :=
  match s.gang? team gang with
  | none => s
  | some g =>
    { s with ops := s.ops.map fun o =>
        match o.kind with
        | .txc d none => if o.team == team && o.gang == gang then { o with kind := .txc d (some (g.txcStatus o.lane)) } else o
        | _ => o }

/-- Whether the transaction of a gang has committed writes. -/
def Gang.txWrote (g : Gang) : Bool :=
  match g.tx with
  | some x => (x.ended.map fun v => field v.toNat 0 8 == 0).getD false && !x.writes.isEmpty
  | none => false

/-- The commit of a gang's transaction goes on; once it has ended its TXCs have their status, and under DET a commit that
wrote wakes the launch's WAITFs (R54). -/
def State.endCommit (s : State) (team gang : Nat) : State :=
  let s := s.commitTx team gang
  match s.team? team, s.gang? team gang with
  | some t, some g =>
    if g.txSent then s
    else
      let s := s.answerTxc team gang
      if g.txWrote && s.detLaunch t.launch then s.wakeWaits t.launch else s
  | _, _ => s

/-- TXC_COMPLETE: the commit units go on with the transaction; a TXC whose status is known delivers it. -/
def execTxcComplete (op : Nat) (st : State) : Host.Outcome State Fault Refusal :=
  match st.op? op with
  | none => .fault .notDue
  | some o =>
    match o.kind with
    | .txc d (some v) => .next (st.deliver o fun t => t.write d v)
    | .txc _ none =>
      if st.txAwaits o.team o.gang then .fault .notDue
      else .next (st.endCommit o.team o.gang)
    | _ => .fault .notDue

/-! ## SPAWN_COMPLETE and SPAWNR_DEPARTURE (R245, R247) -/

/-- SPAWN_COMPLETE: the child exists, or has been spliced. -/
def execSpawnComplete (op : Nat) (st : State) : Host.Outcome State Fault Refusal :=
  match st.op? op with
  | none => .fault .notDue
  | some o =>
    match o.kind with
    | .spawn d v => .next (st.deliver o fun t => t.write d v)
    | _ => .fault .notDue

/-- Whether port 12 takes new packets: not in DRAIN, nor while the island is down (R274, R275). -/
def State.portOpen (s : State) : Bool := s.island.port12Up && s.island.state == .full

/-- SPAWNR_DEPARTURE: the packet leaves by port 12, which answers it itself while the island is unavailable (R351). -/
def execSpawnrDeparture (op : Nat) (st : State) : Host.Outcome State Fault Refusal :=
  match st.op? op with
  | none => .fault .notDue
  | some o =>
    match o.kind with
    | .spawnr d v (some p) =>
      if st.portOpen || st.island.unavailable then .next (({ st with outPackets := st.outPackets ++ [p] }).deliver o fun t => t.write d v)
      else .fault .notDue
    | _ => .fault .notDue

end Sys2Proof.Machine
end

