-- ==== Sys2Proof/Machine/Faults.lean ====
section
/-! DEFINITION. Walks that end, page faults and their records, and INVAL (R261 to R264, R310, R315). -/

namespace Sys2Proof.Machine

/-! ## Fault records (R264, Table 12.3) -/

/-- The 32 bytes of a fault record. -/
def PageFault.bytes (f : PageFault) : List Byte :=
  [f.reason % 2 ^ 8 + f.level % 4 * 2 ^ 8 + f.access % 16 * 2 ^ 16 + f.ctx % 32 * 2 ^ 20 + f.slot % 64 * 2 ^ 25
     + f.core % 512 * 2 ^ 31,
   0, f.id % 2 ^ 32 + (maskOf (f.lanes.map Prod.fst)).toNat * 2 ^ 32, f.va.toNat].flatMap (bytesOfNat 8)

/-- Whether the fault queue takes a record: an entry is free again once its fault is resolved (DESIGN CHOICE, log 27: no
register says how far system software has read). -/
def State.faultSpace (s : State) : Bool :=
  s.fq.configured && decide ((s.faults.filter PageFault.posted).length < s.fq.entries)

/-- Write the record of a fault and signal the queue's vector. -/
def State.postFault (s : State) (f : PageFault) : State :=
  let s := s.writeSpan (s.fq.base + 32 * (s.fq.written % s.fq.entries)) f.bytes
  let s := { s with
    fq := { s.fq with written := s.fq.written + 1 }
    faults := s.faults.map fun (x : PageFault) => if x.id == f.id then { x with posted := true } else x }
  s.signal s.fq.vector

/-- The oldest fault whose record waits for room. -/
def State.unposted (s : State) : Option PageFault := s.faults.find? fun f => !f.posted

/-- FAULT_RECORD_POST. -/
def execFaultRecordPost (st : State) : Host.Outcome State Fault Refusal :=
  match st.unposted with
  | some f => if st.faultSpace then .next (st.postFault f) else .fault .notDue
  | none => .fault .notDue

/-- A new fault: its record is written at once, or waits for room behind those that wait. -/
def State.newFault (s : State) (f : PageFault) : State :=
  let now := s.faultSpace && s.unposted.isNone
  let s := { s with faults := s.faults ++ [f], fq := { s.fq with nextId := (s.fq.nextId + 1) % 2 ^ 32 } }
  if now then s.postFault f else s

/-! ## Faults of threads -/

/-- Whether a lane still waits for a walk: it is in its path, or for a clause fetch it could still start. -/
def Gang.stillWaits (g : Gang) (w : Walk) (l : Nat) : Bool :=
  match w.path with
  | some p => ((g.path? p).map fun q => q.lanes.getLsbD l).getD false
  | none =>
    ((g.threads[l]?).map fun t => !t.exited && t.blocked == .none).getD false && !g.paths.any fun p => p.lanes.getLsbD l

/-- Where the lanes of a walk would trap: at the word of their path, or where their clause begins or goes on (R315). -/
def Gang.walkSite (g : Gang) (w : Walk) : TrapSite :=
  match w.path.bind g.path? with
  | some p => { pc := p.prefixAddr, word := p.pos, header := p.header }
  | none =>
    let t := g.threads.getD ((w.lanes.map Prod.fst).headD 0) Thread.blank
    match t.resume with
    | some r => { pc := r.word, word := (r.word - r.header).toNat / 4, header := r.header }
    | none => { pc := t.pc, word := 0, header := t.pc }

/-- Park a lane on a fault: it leaves its path and retries its word. -/
def Gang.parkOnFault (g : Gang) (w : Walk) (id l : Nat) : Gang :=
  match w.path.bind g.path? with
  | some p =>
    (g.modPath p.uid fun q => { q with lanes := q.lanes &&& ~~~laneBit l }).modThread l fun t =>
      { t with blocked := .fault id, resume := some { word := p.prefixAddr, header := p.header } }
  | none => g.modThread l fun t => { t with blocked := .fault id }

/-- Paths without lanes dissolve. -/
def Gang.sweep (g : Gang) : Gang := { g with paths := g.paths.filter fun p => p.lanes != 0#32 }

/-- A walk's path no longer waits for it. -/
def Gang.endWalk (g : Gang) (uid : Nat) : Gang :=
  { g with paths := g.paths.map fun p =>
      if p.walks.contains uid then
        { p with walks := p.walks.filter fun w => w != uid, held := p.held && decide (p.walks.length > 1) }
      else p }

/-- A walk has ended: its path, or its command, goes on. -/
def State.endWalk (s : State) (w : Walk) : State :=
  let s := { s with walks := s.walks.filter fun x => x.uid != w.uid }
  match w.command with
  | some c => s.modCommand w.team c fun x => if x.state == .waitingWalk then { x with state := .running } else x
  | none => s.modGang w.team w.gang fun g => g.endWalk w.uid

/-- The walk of a prefetch or discard has found no leaf: the word does nothing for that page (R210). -/
def Gang.noteUnmapped (g : Gang) (w : Walk) : Gang :=
  { g with paths := g.paths.map fun p =>
      if w.path == some p.uid then { p with unmapped := w.va.toNat / 2 ^ 16 :: p.unmapped } else p }

/-- An element's page fault: the command is held with a fault record, or its team is killed (R310, R329). -/
def State.commandFault (s : State) (r : EngineRun) (va : W64) (access level reason : Nat) : State :=
  if s.faultRoom r.team.core then
    let f : PageFault :=
      { id := s.fq.nextId, ctx := r.team.ctx, core := r.team.core, va, access, level, reason, team := r.team.uid
        gang := r.cmd.gang, slot := ((r.team.gangs[r.cmd.gang]?).map Gang.slot).getD 0, lanes := [], pc := 0#64, word := 0
        header := 0#64, command := some r.cmd.uid, posted := false }
    (s.modCommand r.team.uid r.cmd.uid fun c => { c with state := .heldFault f.id }).newFault f
  else s.stopCommand r Cause.page va

/-- Threads meet a page fault: they park and its record is posted, or where faults are not held they raise PAGE at once
(R264, R310). -/
def State.pageFault (s : State) (w : Walk) (g : Gang) (level reason : Nat) : State :=
  let ls := w.lanes.filter fun l => g.stillWaits w l.1
  let site := g.walkSite w
  if ls.isEmpty then s
  else if s.faultRoom w.core then
    let f : PageFault :=
      { id := s.fq.nextId, ctx := w.ctx, core := w.core, va := w.va, access := w.access, level, reason, team := w.team
        gang := w.gang, slot := g.slot, lanes := ls, pc := site.pc, word := site.word, header := site.header
        command := none, posted := false }
    ((s.modGang w.team w.gang fun g => (ls.foldl (fun g l => g.parkOnFault w f.id l.1) g).sweep).settleFlags w.team
      w.gang).newFault f
  else
    let traps := ls.map fun l => (l.1, { cause := Cause.page, info := l.2 : Trap })
    let s := s.raiseAt { team := w.team, gang := w.gang, path := w.path.getD 0 } site traps
    (s.modGang w.team w.gang Gang.sweep).settleFlags w.team w.gang

/-- A walk meets an invalid or bad entry (R261, R264): the prefetch it serves does nothing, its command has met a fault,
or its threads have. -/
def State.walkFault (s : State) (w : Walk) (level reason : Nat) : State :=
  if w.quiet then (s.modGang w.team w.gang fun g => g.noteUnmapped w).endWalk w
  else
    match w.command.bind s.command?, s.gang? w.team w.gang with
    | some r, _ => (s.endWalk w).commandFault r w.va w.access level reason
    | none, some g => (s.pageFault w g level reason).endWalk w
    | none, none => s.endWalk w

/-- Whether the walker of the core's die has a walk in hand: it holds 64 at once, and further misses queue in the order
they came (R261). One that waits for a page being zeroed holds no place. -/
def State.inHand (s : State) (w : Walk) : Bool :=
  w.parked || ((s.walks.filter fun x => x.core / 72 == w.core / 72 && !x.parked).take 64).any fun x => x.uid == w.uid

/-- TABLE_WALK_COMPLETE: a translation is installed, a page fault parks its threads, or the page is being zeroed for
another walk (R263). -/
def execTableWalkComplete (walk : Nat) (st : State) : Host.Outcome State Fault Refusal :=
  match st.walks.find? fun w => w.uid == walk with
  | none => .fault .notDue
  | some w =>
    if !st.inHand w then .fault .notDue
    else
    match st.walk w.ctx w.va with
    | (s, .zeroing) =>
      if w.parked then .fault .notDue
      else .next { s with walks := s.walks.map fun x => if x.uid == walk then { x with parked := true } else x }
    | (s, .leaf e) => .next ((s.tlbInstall w.core w.ctx w.va e).endWalk w)
    | (s, .fault level reason) => .next (s.walkFault w level reason)

/-! ## RESOLVE (R264, R315, R329) -/

def State.fault? (s : State) (id : Nat) : Option PageFault := s.faults.find? fun f => f.id == id

/-- A parked thread retries its word. -/
def Thread.retry (t : Thread) (id : Nat) : Thread := if t.blocked == .fault id then { t with blocked := .none } else t

/-- Action 0: the threads, or the command, retry. -/
def State.retryFault (s : State) (f : PageFault) : State :=
  let s := { s with faults := s.faults.filter fun x => x.id != f.id }
  match f.command with
  | some c => s.modCommand f.team c fun c => if c.state == .heldFault f.id then { c with state := .running } else c
  | none => s.modGang f.team f.gang fun g => { g with threads := g.threads.map fun t => t.retry f.id }

/-- Action 1: the threads raise PAGE at their word; a command's team is killed with PAGE. -/
def State.failFault (s : State) (f : PageFault) : State :=
  let ls := f.lanes.filter fun l => ((s.thread? f.team f.gang l.1).map Thread.blocked) == some (.fault f.id)
  let s := s.retryFault f
  match f.command, s.team? f.team with
  | some c, some t =>
    match t.commands.find? fun x => x.uid == c with
    | some cmd => s.stopCommand { team := t, cmd } Cause.page f.va
    | none => s
  | none, some _ =>
    ls.foldl (fun s l =>
      s.trapEntry f.team f.gang l.1 { pc := f.pc, word := f.word, header := f.header }
        { cause := Cause.page, info := l.2 } (maskOf (ls.map Prod.fst))) s
  | _, none => s

/-! ## INVAL (R262) -/

/-- Whether a TLB entry is one that an INVAL drops. -/
def Inval.drops (v : Inval) (e : TlbEntry) : Bool :=
  e.ctx == v.ctx && (v.pages == 0 || overlaps e.base e.size v.base (v.pages * 2 ^ 16))

/-- Every TLB of the device drops the translations of an INVAL. -/
def State.dropTranslations (s : State) (v : Inval) : State :=
  { s with cores := s.cores.map fun c => (c.1, { c.2 with tlb := c.2.tlb.filter fun e => !v.drops e }) }

end Sys2Proof.Machine
end

