-- ==== Sys2Proof/Machine/EngineEvents.lean ====
section
/-! DEFINITION. The steps of the copy and gather engines (R94, R225 to R228, R329). -/

namespace Sys2Proof.Machine

/-- ENGINE_COMMAND_START: once the issuing gang's stores are acknowledged, and those that it had seen are applied, the
command begins. -/
def execEngineCommandStart (cmd : Nat) (st : State) : Host.Outcome State Fault Refusal :=
  match st.command? cmd with
  | none => .fault .notDue
  | some r =>
    if r.cmd.state == .queued && ((r.team.gangs[r.cmd.gang]?).map fun g => g.unacked == 0).getD true
        && st.applied r.team.core r.cmd.after then
      .next (st.modCommand r.team.uid cmd fun c => { c with state := .running })
    else .fault .notDue

/-- An element misses: its command waits for a walk (R261). -/
def State.commandWalk (s : State) (r : EngineRun) (va : W64) (access : Nat) : State :=
  let w : Walk :=
    { uid := s.nextUid, ctx := r.team.ctx, core := r.team.core, va, access, team := r.team.uid, gang := r.cmd.gang, path := none
      command := some r.cmd.uid, quiet := false, lanes := [], parked := false }
  ({ s with walks := s.walks ++ [w] } : State).bump

/-- A command has made n more elements; what it fetched from the system window served the first of them. -/
def Command.made (c : Command) (n : Nat) (state : CommandState) : Command :=
  { c with elements := c.elements + n, fetched := if n == 0 then c.fetched else [], state }

/-- How a run of elements leaves its command. -/
def State.leaveCommand (_ : State) (r : EngineRun) (n : Nat) : EngineEnd Unit → State
  | .ok s () =>
    let written := r.cmd.elements + n ≥ r.count
    let s := s.modCommand r.team.uid r.cmd.uid fun c => c.made n (if written then .written else .running)
    if written then s.finishCommand r.team.uid r.cmd.uid else s
  | .fault s cause addr => (s.modCommand r.team.uid r.cmd.uid fun c => c.made n .running).stopCommand r cause addr
  | .walk s va access => (s.modCommand r.team.uid r.cmd.uid fun c => c.made n .waitingWalk).commandWalk r va access
  | .writer s g => s.modCommand r.team.uid r.cmd.uid fun c => c.made n (.waitingWriter g)
  | .remote s => s.modCommand r.team.uid r.cmd.uid fun c => c.made n .waitingRemote
  | .again s => s.modCommand r.team.uid r.cmd.uid fun c => c.made n .running

/-- A running command makes some of its elements, at least one: as many as the engine comes to before anything else
happens. -/
def State.runCommand (s : State) (r : EngineRun) : State :=
  let left := r.count - r.cmd.elements
  let n := Config.choice s.tick % left + 1
  let q := runElements (fun s i => r.element s i) ((List.range (min n left)).map fun k => r.cmd.elements + k) s
  s.leaveCommand r q.2 q.1

/-- COPY_COMMAND_COMPLETE and GATHER_COMMAND_COMPLETE: a running command comes to its end over one or more of these
steps; all its writes are then made, and once acknowledged its timeline counter may pass it. -/
def commandStep (gather : Bool) (cmd : Nat) (st : State) : Host.Outcome State Fault Refusal :=
  match st.command? cmd with
  | none => .fault .notDue
  | some r => if r.cmd.state == .running && r.cmd.gather == gather then .next (st.runCommand r) else .fault .notDue

/-- COPY_COMMAND_COMPLETE. -/
def execCopyCommandComplete (cmd : Nat) (st : State) : Host.Outcome State Fault Refusal := commandStep false cmd st

/-- GATHER_COMMAND_COMPLETE. -/
def execGatherCommandComplete (cmd : Nat) (st : State) : Host.Outcome State Fault Refusal := commandStep true cmd st

end Sys2Proof.Machine
end

