-- ==== Sys2Proof/Machine/System.lean ====
section
/-! DEFINITION. The system instructions and counters, and REWARP: majors 0x0F to 0x11 (R160 to R166), with the status
registers of Tables 3.3 to 3.11. -/

namespace Sys2Proof.Machine

/-! ## Status registers (R64, R65) -/

namespace StatusReg
def trapPc : Nat := 0x000
def trapCause : Nat := 0x001
def trapInfo : Nat := 0x002
def trapVec : Nat := 0x003
def repState : Nat := 0x004
def winBase : Nat := 0x005
def satf : Nat := 0x006
def fpFlags : Nat := 0x007
def retDepth : Nat := 0x008
def privBase : Nat := 0x009
def taskFlags : Nat := 0x00A
def engCtx : Nat := 0x00B
def barBase : Nat := 0x00C
def launchId : Nat := 0x00D
def seed : Nat := 0x00E
def trapDepth : Nat := 0x00F
def auditCtl : Nat := 0x010
def devId : Nat := 0x011
end StatusReg

/-- A Boolean as a bit. -/
def bitOf (b : Bool) : Nat := if b then 1 else 0

/-- TASKFLAGS (Table 3.8). -/
def taskFlags (l : Launch) (k : Task) (t : Thread) : W64 :=
  BitVec.ofNat 64 (field l.control.toNat 0 5 + 32 * bitOf t.recording + 64 * bitOf k.reexec)

/-- ENGCTX (Table 3.9). -/
def Team.engCtx (t : Team) : W64 := BitVec.ofNat 64 (t.engMap.toNat + 2 ^ 16 * t.timelines.length)

/-- BARBASE (Table 3.10). -/
def Team.barBaseReg (t : Team) : W64 := BitVec.ofNat 64 (t.barBase + 2 ^ 10 * t.barriers.length)

/-- The value of an assigned status register in a thread. -/
def statusValue (s : State) (i : Issue) (t : Thread) : Nat → W64
  | 0x000 => t.trapPc
  | 0x001 => t.trapCause
  | 0x002 => t.trapInfo
  | 0x003 => t.trapVec
  | 0x004 => t.repState
  | 0x005 => BitVec.ofNat 64 t.winBase
  | 0x006 => BitVec.ofNat 64 (bitOf t.satf)
  | 0x007 => t.fp.setWidth 64
  | 0x008 => BitVec.ofNat 64 t.retDepth
  | 0x009 => t.privBase
  | 0x00A => taskFlags i.launch i.task t
  | 0x00B => i.team.engCtx
  | 0x00C => i.team.barBaseReg
  | 0x00D => i.launch.record
  | 0x00E => i.launch.seed
  | 0x00F => BitVec.ofNat 64 (bitOf t.trapDepth)
  | 0x010 => (s.core i.team.core).auditCtl
  | _ => s.island.deviceId.setWidth 64

/-- The index that the a and b fields form (R164). -/
def statusIndex (i j : BitVec 7) : Nat := i.toNat * 128 + j.toNat

/-- Whether a write of a register outside handler mode raises PRIV (R64). -/
def privWrite (r : Nat) : Bool := r == 0x000 || r == 0x001 || r == 0x002 || r == 0x004 || r == 0x010

/-- Whether a value may be written: no nonzero bit where the register's map has MBZ, and for AUDITCTL k at most 20. A
register whose fields are all RO takes any value and ignores it. -/
def statusLegal (r : Nat) (v : W64) : Bool :=
  match r with
  | 0x001 => v.toNat < 2 ^ 12
  | 0x003 => field v.toNat 0 11 == 0
  | 0x004 => v.toNat < 2 ^ 14
  | 0x006 => v.toNat < 2
  | 0x007 => v.toNat < 2 ^ 5
  | 0x010 => v.toNat < 2 ^ 8 && field v.toNat 5 2 == 0 && field v.toNat 0 5 ≤ 20
  | _ => true

/-- Write a status register of a thread. -/
def Thread.writeStatus (t : Thread) (r : Nat) (v : W64) : Thread :=
  match r with
  | 0x000 => { t with trapPc := v }
  | 0x001 => { t with trapCause := v }
  | 0x002 => { t with trapInfo := v }
  | 0x003 => { t with trapVec := v }
  | 0x004 => { t with repState := v }
  | 0x006 => { t with satf := v.getLsbD 0 }
  | 0x007 => { t with fp := v.setWidth 5 }
  | _ => t

/-- Write a core's AUDITCTL; the write that sets enable starts the numbering of its teams (R337). -/
def Core.writeAudit (c : Core) (v : W64) : Core :=
  { c with
    auditCtl := v
    auditNumber := if v.getLsbD 7 && !c.auditCtl.getLsbD 7 then 0 else c.auditNumber }

/-- SRD. -/
def execSrd (d i j : BitVec 7) (st : State) : Host.Outcome State Fault Refusal :=
  let r := statusIndex i j
  pathWord st (fun c l =>
      (l.fieldTrap c.word [.idx r 18, .dst d 1]).or
        (if r == 0x010 && !l.thread.trapDepth then some (privTrap c.word) else none))
    fun c ok s =>
      s.giveLogged c ok d fun l => statusValue st c (c.thread l) r

/-- SWR: where several threads write AUDITCTL the highest lane's value stands. -/
def execSwr (s i j : BitVec 7) (st : State) : Host.Outcome State Fault Refusal :=
  let r := statusIndex i j
  pathWord st (fun c l =>
      (l.fieldTrap c.word [.src s 1, .idx r 18]).or
        (if privWrite r && !l.thread.trapDepth then some (privTrap c.word)
        else if statusLegal r (l.read s) then none
        else some (illopnd c.word ((l.read s).toNat % 2 ^ 32))))
    fun c ok x =>
      let x := match ok.getLast? with
        | some l => if r == 0x010 then x.modCore c.team.core fun k => k.writeAudit ((c.lane l).read s) else x
        | none => x
      x.modGang c.cursor.team c.cursor.gang fun g =>
        g.mapLanes ok fun l t => t.writeStatus r ((c.lane l).read s)

/-! ## YIELD, ICINV and the counters (R161, R165, R166) -/

/-- YIELD. -/
def execYield (st : State) : Host.Outcome State Fault Refusal :=
  pathWord st (fun _ _ => none) fun i ok s =>
    if ok.isEmpty then s else s.modPath i.cursor fun p => { p with yielded := true }

/-- ICINV: the lines go at the word, and again as its clause retires. -/
def execIcinv (st : State) : Host.Outcome State Fault Refusal :=
  pathWord st (fun _ _ => none) fun i ok s =>
    if ok.isEmpty then s else (s.invalidateCode i.team.core).modPath i.cursor fun p => { p with icinv := true }

/-- A core's cycle counter as it stands now: it has run on by one cycle at least. -/
def State.cycleNow (s : State) (core : Nat) : Nat := (s.core core).cycles + 1 + Config.cycleGap s.tick

/-- CNTC. -/
def execCntc (d : BitVec 7) (st : State) : Host.Outcome State Fault Refusal :=
  pathWord st (fun i => fieldCheck i.word true [.dst d 1]) fun i ok s =>
    let now := st.cycleNow i.team.core
    let s := if i.launch.det then s else s.modCore i.team.core fun c => { c with cycles := now }
    s.modGang i.cursor.team i.cursor.gang fun g =>
      g.mapLanes ok fun l t => setReg (i.lane l) d (BitVec.ofNat 64 (if i.launch.det then t.cnti else now)) t

/-- CNTI. -/
def execCnti (d : BitVec 7) (st : State) : Host.Outcome State Fault Refusal :=
  threadWord st (fieldCheck st.curWord true [.dst d 1]) fun l t => setReg l d (BitVec.ofNat 64 t.cnti) t

/-! ## BRK, TRAP and ERET (R162, R163, R301) -/

/-- Where BRK and TRAP are raised: ERET goes on at the word after. -/
def Issue.siteAfter (i : Issue) : TrapSite := { i.site with pc := i.path.addr (i.path.pos + 1) }

/-- BRK and TRAP: each active thread whose fields are good takes the trap TRAP. -/
def trapWord (st : State) (check : Issue → Lane → Option Trap) (info : Lane → W64) : Host.Outcome State Fault Refusal :=
  pathWord st check fun i ok s =>
    s.raiseAt i.cursor i.siteAfter (ok.map fun l => (l, { cause := Cause.trap, info := info (i.lane l) }))

/-- BRK. -/
def execBrk (c : BitVec 7) (st : State) : Host.Outcome State Fault Refusal :=
  trapWord st (fun _ _ => none) fun _ => BitVec.ofNat 64 (2 ^ 63 + c.toNat)

/-- TRAP. -/
def execTrap (a : BitVec 7) (st : State) : Host.Outcome State Fault Refusal :=
  trapWord st (fun i => fieldCheck i.word true [.src a 1]) fun l => l.read a

/-- ERET. -/
def execEret (st : State) : Host.Outcome State Fault Refusal :=
  pathWord st (fun i l => if l.thread.trapDepth then none else some (privTrap i.word)) fun i ok s =>
    (s.modGang i.cursor.team i.cursor.gang fun g => g.mapLanes ok fun _ t => t.returnFromTrap).markTaken i.cursor ok

/-! ## REWARP (R32, R160) -/

/-- A lane reaches the wait of R32 when its clause retires; it keeps where it stood (R311). -/
def State.rewarpLane (s : State) (i : Issue) (l : Nat) (key : BitVec 16) (n : Nat) : State × Fate :=
  (s.modThread i.cursor.team i.cursor.gang l fun t =>
    { t with atRetire := .rewarp key n i.path.prefixAddr i.path.pos i.path.header i.path.lanes }, .done)

/-- REWARP. -/
def execRewarp (a n : BitVec 7) (st : State) : Host.Outcome State Fault Refusal :=
  match st.issue with
  | none => .fault .noIssuingPath
  | some i =>
    let check : Lane → Option Trap := fun l =>
      (l.fieldTrap i.word [.src a 1, .must (decide (1 ≤ n.toNat ∧ n.toNat ≤ 32)) n.toNat, .src 0#7 n.toNat]).or
        (if l.thread.trapDepth then some { cause := Cause.converge, info := i.path.lanes.setWidth 64 } else none)
    let ok := i.active.filter fun l => (check (i.lane l)).isNone
    let bad := i.active.filterMap fun l => (check (i.lane l)).map fun t => (l, t)
    let key : Nat → BitVec 16 := fun l => ((i.lane l).read a).setWidth 16
    let s := st.beginWord i
    if i.det && !ok.isEmpty then
      .next ((s.raiseAll i bad).stopAt i (ok.map fun l => (l, .rewarp (key l) n.toNat)))
    else
      .next (((actLanes (fun l s => s.rewarpLane i l (key l) n.toNat) ok s).1.raiseAll i bad).retireWord i)

end Sys2Proof.Machine
end

