-- ==== Sys2Proof/Machine/Commands.lean ====
section
/-! DEFINITION. The host commands of Table 12.4 and the counting of their completions (R266); INVAL_COMPLETE (R262). -/

namespace Sys2Proof.Machine

/-! ## Counting (R266) -/

/-- A PREEMPT no longer waits for teams that are SAVED, or whose pre-emption has ended with them. -/
def State.stillDraining (s : State) (u : Nat) : Bool :=
  match s.team? u with
  | some t => t.state == .draining || t.drainWanted
  | none => false

/-- Whether a command has completed. -/
def HostCommand.isOver (c : HostCommand) : Bool := c.status.isSome && c.waits.isEmpty

/-- The completed commands that no earlier uncompleted one precedes. -/
def countable (cs : List HostCommand) : List HostCommand := cs.takeWhile HostCommand.isOver

/-- Count the commands that have completed, in order of arrival. -/
def State.settleCommands (s : State) : State :=
  let cs := s.hostCommands.map fun (c : HostCommand) => { c with waits := c.waits.filter s.stillDraining }
  let done := countable cs
  { s with
    hostCommands := cs.drop done.length
    cmdDone := s.cmdDone + done.length
    cmdStat := ((done.getLast?).bind HostCommand.status).getD s.cmdStat }

/-- A command completes with a status, once the teams that it names have drained. -/
def State.completeCommand (s : State) (status : Option Nat) (waits : List Nat) : State :=
  (({ s with hostCommands := s.hostCommands ++ [{ uid := s.nextUid, status, waits }] } : State).bump).settleCommands

/-- A write of the host reaches the device while the compute side runs; its PCIe link is down otherwise (R349). -/
def hostStep (s : State) (f : State) : Host.Outcome State Fault Refusal :=
  if s.island.computeUp then .next f else .fault .notDue

/-- A command: status 1 for a bad operand, 2 where its state refuses it, and otherwise 0 with its effect. -/
def hostCommand (s : State) (bad refused : Bool) (act : State → State) : Host.Outcome State Fault Refusal :=
  hostStep s <|
    if bad then s.completeCommand (some 1) []
    else if refused then s.completeCommand (some 2) []
    else (act s).completeCommand (some 0) []

/-- A power of two between bounds. -/
def powerBetween (n lo hi : Nat) : Bool := decide (lo ≤ n) && decide (n ≤ hi) && n == 2 ^ Nat.log2 n

/-- Whether a ring of n entries of some bytes may stand at a physical address. -/
def ringAt (base n bytes : Nat) : Bool := base % 4096 == 0 && decide (base + n * bytes ≤ deviceBytes)

/-! ## Contexts and queues -/

/-- Put a context in place of the one of its number. -/
def State.setContext (s : State) (c : Context) : State :=
  { s with contexts := sortBy (fun a b => decide (a.id < b.id)) (c :: s.contexts.filter fun x => x.id != c.id) }

/-- CTXSET. -/
def execCtxset (ctx table privBase privSize saveBase saveSize gangQuota poolQuota : Nat) (st : State) :
    Host.Outcome State Fault Refusal :=
  hostCommand st
    (decide (16 ≤ ctx) || table % 8192 != 0 || gangQuota == 0 || decide (64 < gangQuota) || poolQuota == 0
      || decide (96 < poolQuota))
    (st.teams.any fun t => t.ctx == ctx && t.resident)
    fun s => s.setContext
      { id := ctx, table, privBase, privSize, saveBase, saveSize, gangQuota, poolQuota
        held := ((s.context? ctx).map Context.held).getD false }

/-- A queue that has not been configured (Table 12.5). -/
def Queue.blank (id : Nat) : Queue :=
  { id, enabled := false, ctx := 0, priority := 0, ringBase := 0, entries := 0, template := 0#64, generation := 0
    dropped := false, written := 0, items := [], running := none }

/-- The queue of a number. -/
def State.queueAt (s : State) (q : Nat) : Queue := (s.queue? q).getD (Queue.blank q)

/-- Put a queue in place of the one of its number. -/
def State.setQueue (s : State) (q : Queue) : State :=
  { s with queues := sortBy (fun a b => decide (a.id < b.id)) (q :: s.queues.filter fun x => x.id != q.id) }

/-- Launches in a queue's ring, the head included. -/
def Queue.queued (q : Queue) : Nat := q.items.length + (if q.running.isSome then 1 else 0)

/-- A queue is empty and idle. -/
def Queue.idle (q : Queue) : Bool := q.queued == 0

/-- QCFG. -/
def execQcfg (queue ctx priority ringBase entries template : Nat) (st : State) : Host.Outcome State Fault Refusal :=
  hostCommand st
    (decide (64 ≤ queue) || decide (16 ≤ ctx) || decide (4 ≤ priority) || !powerBetween entries 16 65536
      || !ringAt ringBase entries 8 || template % 256 != 0)
    (!(st.queueAt queue).idle)
    fun s => s.setQueue
      { Queue.blank queue with
        enabled := true, ctx, priority, ringBase, entries, template := BitVec.ofNat 64 template
        generation := ((s.queueAt queue).generation + 1) % 2 ^ 24, dropped := (s.queueAt queue).dropped }

/-- QDESTROY. -/
def execQdestroy (queue : Nat) (st : State) : Host.Outcome State Fault Refusal :=
  hostCommand st (decide (64 ≤ queue)) (!(st.queueAt queue).idle) fun s =>
    s.setQueue { s.queueAt queue with enabled := false }

/-! ## Translation -/

/-- INVAL: it stays pending until INVAL_COMPLETE. -/
def execInval (ctx va pages : Nat) (st : State) : Host.Outcome State Fault Refusal :=
  if decide (16 ≤ ctx) then hostStep st (st.completeCommand (some 1) [])
  else
    hostStep st
      (({ st with invals := st.invals ++ [{ uid := st.nextUid + 1, ctx, base := va, pages, command := st.nextUid }] } :
        State).completeCommand none []).bump

/-- Whether a walk may have read an entry that an INVAL concerns: it began before. -/
def Inval.concerns (v : Inval) (w : Walk) : Bool :=
  w.ctx == v.ctx && decide (w.uid < v.uid) &&
    (v.pages == 0 || (decide (v.base ≤ w.va.toNat) && decide (w.va.toNat < v.base + v.pages * 2 ^ 16)))

/-- INVAL_COMPLETE: every TLB drops the translations; the walks that began before the INVAL have ended. -/
def execInvalComplete (inval : Nat) (st : State) : Host.Outcome State Fault Refusal :=
  match st.invals.find? fun v => v.uid == inval with
  | none => .fault .notDue
  | some v =>
    if st.walks.any v.concerns then .fault .notDue
    else
      let s := st.dropTranslations v
      .next (State.settleCommands { s with
        invals := s.invals.filter fun x => x.uid != inval
        hostCommands := s.hostCommands.map fun (c : HostCommand) => if c.uid == v.command then { c with status := some 0 } else c })

/-- RESOLVE: action 0 retries, action 1 fails. -/
def execResolve (fault action : Nat) (st : State) : Host.Outcome State Fault Refusal :=
  hostCommand st ((st.fault? fault).isNone || decide (2 ≤ action)) false fun s =>
    match s.fault? fault with
    | some f => if action == 0 then s.retryFault f else s.failFault f
    | none => s

/-- FQSET: a new ring begins at its first entry. -/
def execFqset (base entries vector : Nat) (st : State) : Host.Outcome State Fault Refusal :=
  hostCommand st
    (!powerBetween entries 64 65536 || !ringAt base entries 32 || decide (vector < 64) || decide (127 < vector)) false
    fun s => { s with fq := { s.fq with configured := true, base, entries, vector, written := 0 } }

/-! ## Device set-up -/

/-- APERTURE: kind 0 leaves the entry unused. -/
def execAperture (entry kind target : Nat) (st : State) : Host.Outcome State Fault Refusal :=
  hostCommand st (decide (4096 ≤ entry) || decide (3 ≤ kind) || (kind == 1 && decide (16384 ≤ target))) false fun s =>
    let rest := s.apertures.filter fun a => a.entry != entry
    { s with apertures :=
        if kind == 0 then rest else sortBy (fun a b => decide (a.entry < b.entry)) ({ entry, kind, target } :: rest) }

/-- TRREL. -/
def execTrrel (ctx : Nat) (st : State) : Host.Outcome State Fault Refusal :=
  hostCommand st (decide (16 ≤ ctx)) (st.traceBusy ctx) fun s => (s.releaseTrace ctx).forgetLaunches

/-- BUDGET. -/
def execBudget (core budget : Nat) (st : State) : Host.Outcome State Fault Refusal :=
  hostCommand st (decide (288 ≤ core) || decide (budget < 16) || decide (255 < budget)) false fun s =>
    s.modCore core fun c => { c with budget }

/-- BACKING. -/
def execBacking (base entries : Nat) (st : State) : Host.Outcome State Fault Refusal :=
  hostCommand st (entries % 4 != 0 || decide (2 ^ 28 < entries)) st.launchedOnce fun s =>
    { s with backingBase := base, backingEntries := entries }

/-- MCQSET: MCHEAD and MCTAIL become 0. -/
def execMcqset (base entries vector : Nat) (st : State) : Host.Outcome State Fault Refusal :=
  hostCommand st
    (!powerBetween entries 64 65536 || !ringAt base entries 64 || decide (vector < 64) || decide (127 < vector)) false
    fun s => { s with mc := { s.mc with configured := true, base, entries, vector, head := 0, tail := 0 } }

/-! ## Cores -/

/-- The cores that a command names. -/
def namedCores (core : Nat) : List Nat := if core == 0xFFFF then List.range 288 else [core]

/-- An operand names a core, or every core. -/
def coreOperand (core : Nat) : Bool := decide (core < 288) || core == 0xFFFF

/-- AUDIT: AUDITCTL of the named cores, as an SWR would write it. -/
def execAudit (core enable k : Nat) (st : State) : Host.Outcome State Fault Refusal :=
  hostCommand st (!coreOperand core || decide (2 ≤ enable) || decide (20 < k)) false fun s =>
    (namedCores core).foldl (fun s c => s.modCore c fun x => x.writeAudit (BitVec.ofNat 64 (enable * 128 + k))) s

/-- Hold or release a context's SAVED teams. -/
def State.holdContext (s : State) (ctx : Nat) (held : Bool) : State :=
  { s with contexts := s.contexts.map fun (c : Context) => if c.id == ctx then { c with held } else c }

/-- The teams that a PREEMPT names, by core. -/
def State.namedTeams (s : State) (ctx core slot : Nat) : List Team :=
  (namedCores core).flatMap fun c =>
    (s.residents c).filter fun t => t.ctx == ctx && (slot == 0xFF || t.gangs.any fun g => g.slot == slot)

/-- Pre-empt teams one after another; false once the save arena has lacked room for one. -/
def State.preemptNamed (s : State) : List Team → State × Bool
  | [] => (s, true)
  | t :: ts =>
    match s.preempt t with
    | some s => s.preemptNamed ts
    | none => ((s.preemptNamed ts).1, false)

/-- PREEMPT. -/
def execPreempt (ctx core slot hold : Nat) (st : State) : Host.Outcome State Fault Refusal :=
  if decide (16 ≤ ctx) || !coreOperand core || !(decide (slot < 64) || slot == 0xFF) || decide (2 ≤ hold) then
    hostStep st (st.completeCommand (some 1) [])
  else
    let named := st.namedTeams ctx core slot
    let p := (if hold == 1 then st.holdContext ctx true else st).preemptNamed named
    hostStep st (p.1.completeCommand (some (if p.2 then 0 else 2)) (named.map Team.uid))

/-- RESUME. -/
def execResume (ctx : Nat) (st : State) : Host.Outcome State Fault Refusal :=
  hostCommand st (decide (16 ≤ ctx)) false fun s => s.holdContext ctx false

end Sys2Proof.Machine
end

