-- ==== Sys2Proof/Machine/TraceOps.lean ====
section
/-! DEFINITION. EDIT, PROP, TRCON, TRCOFF, TDIG and TSTAT: ops 0x69 to 0x6B (R251 to R255). -/

namespace Sys2Proof.Machine

/-! ## EDIT (R117, R251) -/

/-- Whether a page's edits act as edits: it is tracked and its context's trace acts. -/
def State.editable (s : State) (ctx : Nat) (leaf : W64) : Bool := pteTracked leaf && (s.actingTrace? ctx).isSome

/-- One lane of EDIT: a plain store where no trace acts, a trap on a derived page or within the traced launch, and
otherwise a store of the path that compares and marks at its home (R86). -/
def State.editLane (s : State) (i : Issue) (r : Reached) (bs : List Byte) : State × Fate :=
  let store := fun (k : StoreKind) => s.addStore i r.lane r.access.va r.pa bs k (!inTeamPrivate i.team r.access.va)
  if !s.editable i.team.ctx r.leaf then (store .plain, .done)
  else if pteDerived r.leaf || (s.tracedAt i r.leaf).isSome then (s, .trap { cause := Cause.edit, info := r.access.va })
  else (store (.edit i.team.ctx), .done)

/-- EDIT. -/
def execEdit (d a : BitVec 7) (i : BitVec 11) (st : State) : Host.Outcome State Fault Refusal :=
  MemWord.exec
    { flagged := false, dooms := true, sync := none, check := fieldCheck st.curWord true [.src d 1, .src a 1]
      access := fun l => { va := addrI a i l, size := 8, need := .store, code := 1 }
      stall := fun _ i rs => if fenceHolds i (rs.map Reached.lane) then some .hold else none
      again := fun i r s => (s.replayWrite i.team r.access.va (bytesOfNat 8 ((i.lane r.lane).read d).toNat), .done)
      act := fun i r s => s.editLane i r (bytesOfNat 8 ((i.lane r.lane).read d).toNat) } st

/-! ## PROP (R252) -/

/-- The live trace of the launch with a record address, in a context. -/
def State.traceNamed? (s : State) (ctx : Nat) (record : W64) : Option Trace :=
  (s.trace? ctx).filter fun t => t.state != .released && ((s.launch? t.launch).map Launch.record) == some record

/-- A PROP as one lane issues it. -/
def propRequest (s : State) (i : Issue) (l : Nat) (async : Bool) (d b : BitVec 7) (launch : Nat) : PropRequest :=
  { uid := s.nextUid, team := i.cursor.team, gang := i.cursor.gang, lane := l, ctx := i.team.ctx, launch, waitsForReady := true
    async, dest := (i.lane l).dest d, record := if b = 112#7 then none else some ((i.lane l).read b), number := 0, awaits := none }

/-- The thread stays until its PROP is answered. -/
def State.stayAtProp (s : State) (i : Issue) (l uid : Nat) : State :=
  s.modThread i.cursor.team i.cursor.gang l fun t => { t with blocked := .propagate uid }

/-- One lane of PROP. -/
def State.propLane (s : State) (i : Issue) (async : Bool) (d a b : BitVec 7) (l : Nat) : State × Fate :=
  match s.traceNamed? i.team.ctx ((i.lane l).read a) with
  | none => (s.bump.refuseProp (propRequest s i l async d b 0) 1, .done)
  | some t =>
    let r := propRequest s i l async d b t.launch
    if t.owns i.team.launch then (s, .trap { cause := Cause.traceconflict, info := (i.lane l).read a })
    else
      match t.state with
      | .failed => (s.bump.refuseProp r 2, .done)
      | .recording | .settling => (({ s.bump with props := s.props ++ [r] }).stayAtProp i l r.uid, .done)
      | _ => (((s.bump.stayAtProp i l r.uid).joinProp r).settleTrace i.team.ctx, .done)

/-- PROP waits until the gang's stores are acknowledged: earlier edits have marked. -/
def propWord (st : State) (async : Bool) (d a b : BitVec 7) : Host.Outcome State Fault Refusal :=
  SyncWord.exec
    { check := fun i l =>
        (fieldCheck i.word true [.dst d 1, .src a 1, .src b 1] l).or
          (if b != 112#7 && (l.read b).toNat % 64 != 0 && !i.gang.inTx l.lane then
            some { cause := Cause.align, info := l.read b }
          else none)
      wait := fun s i ls => s.releaseWaits i ls
      sync := none
      act := fun i l s => s.propLane i async d a b l } st

/-- PROP and PROP.async. -/
def execPropagate (f : BitVec 1) (d a b : BitVec 7) (st : State) : Host.Outcome State Fault Refusal :=
  propWord st (f == 1#1) d a b

/-! ## Recording (R253) -/

/-- TRCON and TRCOFF: an effect in a task of a TRACE launch only. -/
def recordWord (st : State) (on : Bool) : Host.Outcome State Fault Refusal :=
  pathWord st (fun _ _ => none) fun i ok s =>
    if i.launch.traced then
      s.modGang i.cursor.team i.cursor.gang fun g => g.mapLanes ok fun _ t => { t with recording := on }
    else s

/-- TRCON. -/
def execTrcon (st : State) : Host.Outcome State Fault Refusal := recordWord st true

/-- TRCOFF. -/
def execTrcoff (st : State) : Host.Outcome State Fault Refusal := recordWord st false

/-! ## TDIG and TSTAT (R254, R255) -/

/-- The task's digest, with the stores of the gang that are kept back: they come before the TDIG all the same (R254). -/
def State.digestNow (s : State) (i : Issue) : W64 :=
  (((s.core i.team.core).stores.filter fun x =>
      x.deferred && x.digest && x.command.isNone && x.team == i.cursor.team && x.countGang == i.cursor.gang).foldl
    (fun k x => k.wrote x.va x.data) i.task).digest

/-- TDIG: it waits for the gang's stores. -/
def execTdig (d : BitVec 7) (st : State) : Host.Outcome State Fault Refusal :=
  match st.issue with
  | none => .fault .noIssuingPath
  | some i =>
    if i.gang.unacked != 0 && !i.active.isEmpty then .next (st.hold i)
    else
      pathWord st (fun i => fieldCheck i.word true [.dst d 1]) fun i ok s =>
        s.giveLogged i ok d fun _ => s.digestNow i

/-- The status word of Table 11.9. -/
def traceStatus : Option Trace → W64
  | none => 0xFF#64
  | some t =>
    BitVec.ofNat 64 (t.state.code + 256 * min t.staleCount (2 ^ 24 - 1) + 2 ^ 32 * (t.propDone % 2 ^ 32))

/-- The live trace of the issuing launch. -/
def State.ownTrace? (s : State) (i : Issue) : Option Trace :=
  (s.trace? i.team.ctx).filter fun t => t.state != .released && t.launch == i.launch.uid

/-- TSTAT. -/
def execTstat (d a : BitVec 7) (st : State) : Host.Outcome State Fault Refusal :=
  pathWord st (fun i => fieldCheck i.word true [.dst d 1, .src a 1]) fun i ok s =>
    s.giveLogged i ok d fun l =>
      traceStatus (if a = 112#7 then st.ownTrace? i else st.traceNamed? i.team.ctx ((i.lane l).read a))

end Sys2Proof.Machine
end

