-- ==== Sys2Proof/Machine/HostPort.lean ====
section
/-! DEFINITION. The host's reads and writes of the two BARs (R265, R267, R268, R307, R328, R333). -/

namespace Sys2Proof.Machine

/-! ## Launch queues (R267, Table 12.5) -/

/-- Append to a queue's ring, which lies in device memory: the entry of a record is its address; what the entry of a
packet holds is private to the device (DESIGN CHOICE, log 46: entries of 8 bytes). -/
def State.enqueue (s : State) (q : Queue) (x : QueueItem) : State :=
  let at_ := q.ringBase + 8 * (q.written % q.entries)
  let bytes := match x with
    | .record a => bytesOfNat 8 a.toNat
    | _ => (List.range 8).map fun k => Config.privateByte q.ctx (at_ + k)
  (s.deviceWrite at_ bytes).setQueue { q with items := q.items ++ [x], written := q.written + 1 }

/-- Whether a queue's ring has a free entry. -/
def Queue.hasRoom (q : Queue) : Bool := decide (q.queued < q.entries)

/-- An 8-byte write of QTAIL: the launch joins the ring, or is discarded and noted. -/
def State.writeTail (s : State) (queue : Nat) (a : W64) : State :=
  let q := s.queueAt queue
  if q.enabled && q.hasRoom && a.toNat % 256 == 0 then s.enqueue q (.record a) else s.setQueue { q with dropped := true }

/-- QTAIL_WRITE: 8-byte writes only. -/
def execQtailWrite (queue size address : Nat) (st : State) : Host.Outcome State Fault Refusal :=
  hostStep st (if decide (queue < 64) && size == 8 then st.writeTail queue (BitVec.ofNat 64 address) else st)

/-- Writing 1 to the dropped bit of QSTAT clears it. -/
def State.writeStat (s : State) (queue : Nat) (v : W64) : State :=
  if v.getLsbD 37 then s.setQueue { s.queueAt queue with dropped := false } else s

/-- QSTAT_WRITE. -/
def execQstatWrite (queue : Nat) (value : BitVec 64) (st : State) : Host.Outcome State Fault Refusal :=
  hostStep st (if decide (queue < 64) then st.writeStat queue value else st)

/-- QSTAT of a queue. -/
def Queue.stat (q : Queue) : W64 :=
  BitVec.ofNat 64 (q.generation % 2 ^ 24 * 2 ^ 40 + bitOf q.dropped * 2 ^ 37 + bitOf q.enabled * 2 ^ 36
    + q.priority % 4 * 2 ^ 34 + (q.entries - q.queued) % 2 ^ 17 * 2 ^ 17 + q.queued % 2 ^ 17)

/-! ## The edit port (R117, R268, R333) -/

/-- An edit of the host comes about: refused on a derived page and where translation does not let it write. -/
def State.editWrite (s : State) (ctx : Nat) (va : W64) (bytes : List Byte) : State :=
  match s.walk ctx va with
  | (s', .leaf e) =>
    if pteDerived e then s
    else
      match s'.unitReach ctx va .store with
      | (s', .inr _) => s'
      | (s', .inl pa) =>
        let s' := if isRemote pa then (s'.unitWrite ctx va bytes).1
          else if s'.editable ctx e then (s'.writeMarking ctx va pa bytes none).touchLine pa
          else s'.deviceWrite pa bytes
        { s' with edCount := s'.edCount + 1 }
  | _ => s

/-- One edit of the host, in a context. Where its page is being zeroed for another walk it waits in the port, and later
edits do not: R263 parks a path, and the host has none (DESIGN CHOICE, log 40). -/
def State.hostEdit (s : State) (ctx : Nat) (va data : W64) : State :=
  let bytes := bytesOfNat 8 data.toNat
  s.orLater { act := .edit, ctx, va, bytes } fun s => s.editWrite ctx va bytes

/-- EDWIN_WRITE: 16-byte writes of aligned addresses only. -/
def execEdwinWrite (size : Nat) (address data : BitVec 64) (st : State) : Host.Outcome State Fault Refusal :=
  hostStep st (if size == 16 && address.toNat % 8 == 0 then st.hostEdit st.edCtx address data else st)

/-! ## Registers of BAR0 (R265, R307) -/

/-- A write of MCHEAD is taken modulo the entry count. -/
def State.writeHead (s : State) (v : Nat) : State := { s with mc := { s.mc with head := v % s.mc.entries } }

/-- MCHEAD_WRITE. -/
def execMcheadWrite (value : Nat) (st : State) : Host.Outcome State Fault Refusal := hostStep st (st.writeHead value)

/-- A command written to CMDWIN (R266): the opcode in byte 0, the operands in the order of Table 12.4 from doubleword 1 on,
and CTXSET's two quotas in the halves of doubleword 7. The rule gives the doublewords to the operands without saying which
operand stands in which, and names no effect of another opcode, which counts as a bad operand (DESIGN CHOICE, log 46). -/
def hostCommandWord (v : BitVec 512) (st : State) : Host.Outcome State Fault Refusal :=
  let d := fun (k : Nat) => (v.extractLsb' (64 * k) 64).toNat
  match (v.extractLsb' 0 8).toNat with
  | 0x01 => execCtxset (d 1) (d 2) (d 3) (d 4) (d 5) (d 6) (d 7 % 2 ^ 32) (d 7 / 2 ^ 32) st
  | 0x02 => execQcfg (d 1) (d 2) (d 3) (d 4) (d 5) (d 6) st
  | 0x03 => execQdestroy (d 1) st
  | 0x04 => execInval (d 1) (d 2) (d 3) st
  | 0x05 => execResolve (d 1) (d 2) st
  | 0x06 => execAperture (d 1) (d 2) (d 3) st
  | 0x07 => execTrrel (d 1) st
  | 0x08 => execBudget (d 1) (d 2) st
  | 0x09 => execBacking (d 1) (d 2) st
  | 0x0A => execPreempt (d 1) (d 2) (d 3) (d 4) st
  | 0x0B => execFqset (d 1) (d 2) (d 3) st
  | 0x0C => execMcqset (d 1) (d 2) (d 3) st
  | 0x0D => execResume (d 1) st
  | 0x0E => execAudit (d 1) (d 2) (d 3) st
  | _ => hostStep st (st.completeCommand (some 1) [])

/-- REGISTER_WRITE: EDCTX holds a context; the registers with behaviour of their own act; read-only registers and the
EDWIN takes no write of this size. A write of 64 bytes to CMDWIN is a command, and the window discards any other size
(R266). The rules state a size for writes of QTAIL, EDWIN and CMDWIN; a write of any size
acts on QSTAT, EDCTX and MCHEAD (DESIGN CHOICE, log 46). -/
def execRegisterWrite (offset size : Nat) (value : BitVec 512) (st : State) : Host.Outcome State Fault Refusal :=
  if offset == 0x40000 && size == 64 then hostCommandWord value st
  else hostStep st <|
    if offset == 0x50010 then { st with edCtx := value.toNat % 16 }
    else if offset == 0x40050 then st.writeHead value.toNat
    else if decide (offset < 0x40000) && offset % 4096 == 0 && size == 8 then st.writeTail (offset / 4096) (value.setWidth 64)
    else if decide (offset < 0x40000) && offset % 4096 == 8 then st.writeStat (offset / 4096) (value.setWidth 64)
    else st

/-- What a host read of a register of BAR0 returns. A read of QTAIL, CMDWIN, EDWIN or an offset that no table lists returns
0: they have no stated access code and no read value (DESIGN CHOICE, log 46). -/
def State.readRegister (s : State) (offset : Nat) : W64 :=
  if decide (offset < 0x40000) && offset % 4096 == 8 then (s.queueAt (offset / 4096)).stat
  else
    match offset with
    | 0x40040 => BitVec.ofNat 64 s.cmdDone
    | 0x40048 => BitVec.ofNat 64 s.cmdStat
    | 0x40050 => BitVec.ofNat 64 s.mc.head
    | 0x40058 => BitVec.ofNat 64 s.mc.tail
    | 0x40060 => BitVec.ofNat 64 s.mc.drop
    | 0x40068 => s.island.deviceId.setWidth 64
    | 0x50010 => BitVec.ofNat 64 s.edCtx
    | 0x50018 => BitVec.ofNat 64 s.edCount
    | _ => 0#64

/-! ## BAR2 (R265, R268, R328) -/

/-- HOST_MEMORY_WRITE: a posted write of 1 to 256 bytes, applied at its home slices. -/
def execHostMemoryWrite (address : Nat) (data : List Byte) (st : State) : Host.Outcome State Fault Refusal :=
  if data.isEmpty || decide (256 < data.length) || decide (deviceBytes < address + data.length) then .fault .notDue
  else hostStep st (st.writeSpan address data)

/-- HOST_MEMORY_READ: the bytes, or from a poisoned sector a poisoned completion whose bytes are all ones. -/
def execHostMemoryRead (address size : Nat) (st : State) : Host.Outcome State Fault Refusal :=
  if size == 0 || decide (deviceBytes < address + size) then .fault .notDue
  else
    let answer := if st.poisonedAt address size then (List.replicate size 0xFF#8, true)
      else (st.mem.readBytes address size, false)
    hostStep st { st with hostReads := st.hostReads ++ [answer] }

end Sys2Proof.Machine
end

