-- ==== Sys2Proof/Machine/Arrivals.lean ====
section
/-! DEFINITION. What the compute side does with packets that reach it (R40, R269, R345 to R347, R350): requests that it
serves, task packets, responses, acknowledgements and refusals. The payload of a request is that of requestFlit, with
more than 8 bytes of data in the flits behind it; a response's first flit holds in byte 0 whether the data is poisoned,
in byte 1 the flags raised, and in bytes 8 to 15 an old value, with read data in the flits behind it (DESIGN CHOICE, log 47). -/

namespace Sys2Proof

/-! ## Requests and responses -/

/-- The size of a request. -/
def Packet.size (p : Packet) : Nat := if p.num 0 1 == 0 then 256 else p.num 0 1

/-- The operation code of a request. -/
def Packet.code (p : Packet) : Nat := p.num 1 1

/-- The data of a write. -/
def Packet.data (p : Packet) : List Byte :=
  if p.payload.length ≤ 64 then (p.payload.drop 8).take (Nat.min p.size 8) else (p.payload.drop 64).take p.size

/-- Where in this device's memory a request acts. -/
def Packet.place (p : Packet) : Nat := p.addr.toNat % 2 ^ 39

/-- The response to a request, in whole flits. -/
def Packet.respond (p : Packet) (poisoned : Bool) (flags old : Nat) (data : List Byte) : Packet :=
  { dst := p.src, src := p.dst, vc := 1, flits := 1 + (data.length + 63) / 64, kind := 4, tag := p.tag, addr := 0#64
    payload := [if poisoned then 1#8 else 0#8, BitVec.ofNat 8 flags] ++ List.replicate 6 0#8 ++ Machine.bytesOfNat 8 old
      ++ List.replicate 48 0#8 ++ Machine.padFlits data }

/-- Whether a request is a write or an ATRED. -/
def Packet.writes (p : Packet) : Bool := p.kind == 1 || (p.kind == 2 && decide (32 ≤ p.code))

def Packet.poisoned (p : Packet) : Bool := p.num 0 1 == 1
def Packet.sat (p : Packet) : Bool := (p.num 1 1).testBit 5
def Packet.fp (p : Packet) : BitVec 5 := BitVec.ofNat 5 (p.num 1 1)
def Packet.old (p : Packet) : Nat := p.num 8 8
def Packet.readData (p : Packet) : List Byte := p.payload.drop 64

end Sys2Proof

namespace Sys2Proof.Machine

/-! ## Requests of other devices -/

/-- The operation that an atomic request asks for. -/
def requestAct (p : Packet) : SyncAct :=
  let v := BitVec.ofNat 64 (p.num 8 8)
  if p.code < 16 then .atomic p.code p.size 0#64 p.place v .discard
  else if p.code == requestCas then .cas p.size 0#64 p.place v (BitVec.ofNat 64 (p.num 16 8)) .discard
  else .reduce (p.code - 32) p.size 0#64 p.place v

/-- A read, write or atomic is served at its home slice; a write and a reduction are acknowledged (R86, R345). -/
def State.serve (s : State) (p : Packet) : State :=
  match p.kind with
  | 0 =>
    s.send (if s.poisonedAt p.place p.size then p.respond true 0 0 []
      else p.respond false 0 0 (s.mem.readBytes p.place p.size))
  | 1 =>
    (s.writeSpan p.place p.data).send (p.answer 5 0 0)
  | _ =>
    match s.performAtomic (requestAct p) with
    | .poisoned => s.send (p.respond true 0 0 [])
    | .done s old sat fp =>
      s.send (if p.code < 32 then p.respond false (fp.toNat + 32 * bitOf sat) old [] else p.answer 5 0 0)

/-! ## Task packets (R40, R269, R345, R350) -/

/-- Why a task packet is refused (Table 21.2). -/
def State.taskRefusal (s : State) (p : Packet) : Option Nat :=
  let h := p.addr.toNat
  if 64 ≤ field h 14 10 then some 3
  else
    let q := s.queueAt (field h 14 10)
    if !q.enabled then some 1
    else if field h 24 24 != q.generation then some 2
    else if !q.hasRoom then some 4
    else
      match s.walkTables q.ctx q.template with
      | .leaf .. => none
      | .fault .. => some 7

/-- A packet that the queue controller has accepted before, among the last 4,096 of its source. -/
def State.duplicate (s : State) (p : Packet) : Bool := s.island.accepted.contains (p.src, p.launchId, p.ticket)

/-- Keep the last 4,096 of a source. -/
def keepAccepted (xs : List (Nat × W64 × Nat)) (x : Nat × W64 × Nat) : List (Nat × W64 × Nat) :=
  let mine := xs.filter fun y => y.1 == x.1
  let xs := if mine.length ≥ 4096 then
      (match mine.head? with
       | some y => xs.erase y
       | none => xs)
    else xs
  xs ++ [x]

/-- A task packet joins its queue, is acknowledged once more, or is refused for a reason. -/
def State.takeTask (s : State) (p : Packet) : State ⊕ Nat :=
  if s.duplicate p then .inl (s.acknowledge p 0)
  else
    match s.taskRefusal p with
    | some r => .inr r
    | none =>
      let q := s.queueAt (field p.addr.toNat 14 10)
      let s := (s.walk q.ctx q.template).1.enqueue q (.packet p)
      .inl (({ s with island := { s.island with accepted := keepAccepted s.island.accepted (p.src, p.launchId, p.ticket) } } :
        State).acknowledge p 0)

/-! ## Answers to this device's requests -/

/-- The request that a packet answers. -/
def State.remoteOf (s : State) (tag src : Nat) : Option Remote :=
  s.remotes.find? fun r => r.packet.tag == tag && r.packet.dst == src

/-- The request that a refusal answers, whichever island sends it (R345). -/
def State.refusedRemote (s : State) (p : Packet) : Option Remote :=
  s.remotes.find? fun r => r.packet.tag == p.tag && r.packet.kind == p.ackOrigKind

/-- A request is answered. -/
def State.dropRemote (s : State) (r : Remote) : State := { s with remotes := s.remotes.filter fun x => x.packet != r.packet || x.pa != r.pa }

/-- Bytes that have come, at their addresses in the system window. -/
def Remote.cells (r : Remote) (bs : List Byte) : List Host.Cell := (bs.take r.packet.size).mapIdx fun k b => (r.pa + k, b)

/-- The store that a request carries, with its core. -/
def State.sentStore (s : State) (r : Remote) : Option (Nat × StoreOp) :=
  r.store.bind fun c => ((s.core c.1).stores.find? fun x => x.uid == c.2).map fun x => (c.1, x)

/-- An answer's sector fills the L1 that asked for it, beneath the stores that the core has applied since (R86); fills of
the same sector that are still on their way may be older, and do not follow (R101). -/
def State.fillRemote (s : State) (core : Nat) (r : Remote) (p : Packet) : State :=
  let sec := sectorOf r.pa
  (s.dropSector core sec).modCore core fun c =>
    c.l1Fill { sector := sec, data := overlay r.late (64 * sec) (p.readData.take 64), poisoned := false }

/-- The L1 of a core after an access of the system window has bound: filled, or without an older sector. -/
def State.boundRemote (s : State) (core : Nat) (r : Remote) (p : Packet) : State :=
  match r.fill with
  | some c => s.fillRemote c r p
  | none => s.dropSector core (sectorOf r.pa)

/-- After an operation of a DET launch that wrote at its target every WAITF of the launch observes again (R54). -/
def State.wakeDet (s : State) (team : Nat) (wrote : Bool) : State :=
  match s.team? team with
  | some t => if wrote && s.detLaunch t.launch then s.wakeWaits t.launch else s
  | none => s

/-- The thread's own stores among those that its core has applied since its load left, and those still in the path. -/
def State.ownBefore (s : State) (o : Op) (r : Remote) : List StoreOp :=
  (r.late.filter fun x => x.command.isNone && x.team == o.team && x.gang == o.gang && x.lane == o.lane && decide (x.seq < o.seq))
    ++ s.ownStores o.core o.team o.gang o.lane o.seq

/-- A load or an atomic of the system window has its value: a load beneath the thread's own earlier stores (R86). -/
def State.answerOp (s : State) (uid : Nat) (r : Remote) (p : Packet) : State :=
  match s.op? uid with
  | none => s
  | some o =>
    match o.kind with
    | .load q =>
      let bs := ((if r.packet.size == 64 then p.readData.drop (q.pa % 64) else p.readData).take q.size)
      (s.boundRemote o.core r p).bindTo o q (overlay (s.ownBefore o r) q.pa bs)
    | .atomic a =>
      (((s.dropSector o.core (sectorOf a.phys)).modOp uid fun o => { o with kind := .returned a.dest p.old p.sat p.fp }).wakeDet
        o.team (a.atomicOn p.old).isSome).settleReleases o.team o.gang
    | _ => s

/-- A target has accepted a store or reduction. -/
def State.answerStore (s : State) (core : Nat) (x : StoreOp) : State :=
  (s.acceptStore core x).wakeDet x.team x.kind.reduces

/-- A value that a commit has asked for again. -/
def Gang.txAnswer (g : Gang) (pa : Nat) (v : W64) : Gang :=
  { g with tx := g.tx.map fun x =>
      match x.commit with
      | .validating a vs => { x with commit := .validating a (vs ++ [(pa, v)]) }
      | .writing => x }

/-- A read of the system window for a team's engine or word has bound: its core's L1 keeps no older sector. -/
def State.dropFor (s : State) (team pa : Nat) : State :=
  match s.team? team with
  | some t => s.dropSector t.core (sectorOf pa)
  | none => s

/-- An answer's data goes where the request wanted it. -/
def State.answerRemote (s : State) (r : Remote) (p : Packet) : State :=
  let s := s.dropRemote r
  let s := match r.op with
    | some u => s.answerOp u r p
    | none =>
      match r.fill with
      | some c => s.fillRemote c r p
      | none => s
  let s := match s.sentStore r with
    | some (c, x) => s.answerStore c x
    | none => s
  let s := match r.watcher with
    | some (t, g, l) =>
      s.observed t g l r.pa (BitVec.ofNat 64 (natOfBytes (p.readData.take 8)))
        !(((s.team? t).map fun x => s.detLaunch x.launch).getD false)
    | none => s
  let s := match r.commit, r.reader with
    | some (t, g), none => s.modGang t g fun x => x.txAnswer r.pa (BitVec.ofNat 64 (natOfBytes (p.readData.take 8)))
    | _, _ => s
  let s := match r.command with
    | some (t, c) => (s.dropFor t r.pa).modCommand t c fun x =>
        { x with fetched := x.fetched ++ r.cells p.readData, state := if x.state == .waitingRemote then .running else x.state }
    | none => s
  let s := match r.reader with
    | some c => s.modPath c fun q => { q with fetched := q.fetched ++ r.cells p.readData }
    | none => s
  if r.unit then { s with unitFetched := s.unitFetched ++ r.cells p.readData } else s

/-! ## Consumption of poison, and refusals (R328, R347) -/

/-- A kill by an answer: kind 0 for poisoned data, kind 6 for a refusal, with info and the window's address. -/
def Remote.kill (r : Remote) (kind : Nat) (info : W64) (pc : W64) (lanes : W32) (slot : Nat) : Kill :=
  { cause := Cause.poison, firstCause := 0, info, addr := if kind == 0 then info else BitVec.ofNat 64 r.pa, pc, lanes, kind
    slot, silent := false }

/-- Kill the team whose gang a request served. -/
def State.killFor (s : State) (r : Remote) (kind : Nat) (info : W64) (team gang : Nat) (pc : W64) (lanes : W32) : State :=
  s.killTeam team (r.kill kind info pc lanes (((s.gang? team gang).map Gang.slot).getD 0))

/-- Kill the team whose engine command a request served: the record of poison holds the ticket (R329), that of a refusal
the reason (R347). -/
def State.killCommand (s : State) (r : Remote) (kind : Nat) (info : W64) (team gang ticket : Nat) : State :=
  s.killTeam team
    { r.kill kind (if kind == 0 then BitVec.ofNat 64 ticket else info) 0#64 0#32 (((s.gang? team gang).map Gang.slot).getD 0) with
      addr := if kind == 0 then info else BitVec.ofNat 64 r.pa }

/-- A transaction that meets poison, or a refusal, in the system window is doomed with code 10; its load returns 0
(R330). -/
def State.poisonTx (s : State) (team gang : Nat) (r : Remote) : State :=
  let s := s.modGang team gang fun g =>
    { g with tx := g.tx.map fun x => if x.doom.isNone && x.ended.isNone then { x with doom := some 10 } else x }
  match r.reader with
  | some c => s.modPath c fun q => { q with fetched := q.fetched ++ r.cells (List.replicate 8 0#8) }
  | none => s

/-- A request ends as a consumption of poison. -/
def State.consumeRemote (s : State) (r : Remote) (kind : Nat) (info : W64) : State :=
  let s := s.dropRemote r
  let s := match r.op.bind s.op? with
    | some o =>
      if o.live then (s.endOp o).killFor r kind info o.team o.gang o.pc (laneBit o.lane) else s.endOp o
    | none => s
  let s := match s.sentStore r with
    | some (c, x) => (s.killFor r kind info x.team x.gang x.pc (laneBit x.lane)).acceptStore c x
    | none => s
  let s := match r.watcher with
    | some (t, g, l) => s.killFor r kind info t g (s.waitfWord t g l) (laneBit l)
    | none => s
  let s := match r.command with
    | some (t, c) =>
      let cmd := (s.command? c).map EngineRun.cmd
      (s.modCommand t c fun x => { x with state := .stopped }).killCommand r kind info t
        ((cmd.map Command.gang).getD 0) ((cmd.map Command.ticket).getD 0)
    | none => s
  let s := match r.commit with
    | some (t, g) => s.poisonTx t g r
    | none => s
  let s := match r.reader with
    | some c =>
      if r.commit.isSome then s
      else s.killFor r kind info c.team c.gang (((s.path? c).map Path.prefixAddr).getD 0#64)
        (((s.path? c).map Path.lanes).getD 0#32)
    | none => s
  let s := match r.fetcher with
    | some t => s.killFor r kind info t 0 0#64 0#32
    | none => s
  if r.unit && r.fetcher.isNone then { s with unitFailed := s.unitFailed ++ [r.pa] } else s

/-- A refused write or ATRED counts as acknowledged, and leaves a record (R347). -/
def State.refuseWrite (s : State) (r : Remote) (reason : Nat) : State :=
  let s := (s.dropRemote r).writeRecord { McRecord.blank 6 0 0 with info := BitVec.ofNat 64 reason, addr := BitVec.ofNat 64 r.pa }
  match s.sentStore r with
  | some (c, x) => s.popStore c x
  | none => s

/-- A request of this device has been refused (R347). -/
def State.refuseRemote (s : State) (r : Remote) (reason : Nat) : State :=
  if r.packet.writes then s.refuseWrite r reason else s.consumeRemote r 6 (BitVec.ofNat 64 reason)

/-! ## Responses, acknowledgements and refusals -/

/-- A response: its data, or a consumption of poison; one that answers nothing is discarded. -/
def State.takeResponse (s : State) (p : Packet) : State :=
  match s.remoteOf p.tag p.src with
  | none => s
  | some r => if p.poisoned then s.consumeRemote r 0 (BitVec.ofNat 64 (r.pa / 64 * 64)) else s.answerRemote r p

/-- A ticket has been accepted: an acknowledgement of stage 0 (R350). -/
def State.acceptTicket (s : State) (l : Launch) (t : Ticket) : State :=
  s.modLaunch l.uid fun x =>
    { x with unsettled := x.unsettled.map fun (y : Ticket) => if y.number == t.number then { y with accepted := true } else y }

/-- An acknowledgement: of a write or ATRED, or of a SPAWNR packet by stage (R346); one that settles nothing is
discarded. -/
def State.takeAck (s : State) (p : Packet) : State :=
  if p.ackOrigKind == 3 then
    match s.ticketOf p with
    | none => s
    | some (l, t) => if p.ackStage == 0 then s.acceptTicket l t else (s.settleTicket l t t.weight).remoteLive l t
  else
    match s.remoteOf p.tag p.src with
    | some r => s.answerRemote r p
    | none => s

/-- A refusal of a SPAWNR packet or of another request (R346, R347). -/
def State.takeRefusal (s : State) (p : Packet) : State :=
  if p.ackOrigKind == 3 then
    match s.ticketOf p with
    | none => s
    | some (l, t) => (s.settleTicket l t p.ackWeight).refusalRecord l t p.ackReason
  else
    match s.refusedRemote p with
    | some r => s.refuseRemote r p.ackReason
    | none => s

end Sys2Proof.Machine
end

