-- ==== Sys2Proof/Machine/Island.lean ====
section
/-! DEFINITION. The router island: routing, the answers that it gives in the compute side's place, and its ports
(R270 to R275, R342 to R345, R348). -/

namespace Sys2Proof

/-- A request: what a refusal can answer. -/
def Packet.asks (p : Packet) : Bool := decide (p.kind ≤ 3)

/-- A packet is one that R18 and R271 allow: its header's values, and flits of 64 bytes. -/
def Packet.legal (p : Packet) : Bool :=
  decide (p.dst < 2 ^ 14) && decide (p.src < 2 ^ 14) && decide (p.vc < 4) && decide (1 ≤ p.flits) && decide (p.flits ≤ 5)
    && decide (p.kind ≤ 7) && p.payload.length == 64 * p.flits

end Sys2Proof

namespace Sys2Proof.Machine

/-! ## The island log (R343) -/

namespace IslandEvent
/-- The codes of the island's own records (DESIGN CHOICE, log 49). -/
def portRetired : Nat := 0
def computeReset : Nat := 1
def powerOff : Nat := 2
def regulatorTrip : Nat := 3
def discarded : Nat := 4
def bootFailure : Nat := 5
end IslandEvent

/-- Add a record; the last 256 are kept. -/
def Island.note (i : Island) (event info : Nat) : Island :=
  let log := i.log ++ [({ event, info } : IslandRecord)]
  { i with log := log.drop (log.length - 256) }

def State.modIsland (s : State) (f : Island → Island) : State := { s with island := f s.island }

def State.note (s : State) (event info : Nat) : State := s.modIsland fun i => i.note event info

def Island.modPort (i : Island) (n : Nat) (f : Port → Port) : Island := { i with ports := i.ports.modify n f }

/-! ## Routing (R272) -/

def Island.port (i : Island) (n : Nat) : Port := i.ports.getD n Port.reset

/-- A device's entry in the routing table. -/
def Island.route (i : Island) (dst : Nat) : BitVec 16 := lookupD i.routes dst 0#16

/-- The link port by which a packet leaves, if one can be used (R272, R344). -/
def Island.exit (i : Island) (dst : Nat) : Option Nat :=
  let e := i.route dst
  let first := field e.toNat 0 4
  let second := field e.toNat 4 4
  if !e.getLsbD 15 then none
  else if (i.port first).up then some first
  else if e.getLsbD 8 && (i.port second).up then some second
  else none

/-- The package's own id. -/
def State.ownId (s : State) : Nat := s.island.deviceId.toNat

/-- The flits of packets. -/
def flitsOf (ps : List Packet) : Nat := (ps.map Packet.flits).sum

/-- The packets that a retry buffer of 64 flits holds, in whole or in part: each flit that enters pushes out the oldest. -/
def keepFlits : List Packet → List Packet
  | [] => []
  | p :: ps => if flitsOf ps < 64 then p :: ps else keepFlits ps

/-- A packet leaves by a link port, which keeps its flits in its retry buffer of 64 entries (R342). -/
def Island.transmit (i : Island) (n : Nat) (p : Packet) : Island :=
  { i.modPort n (fun q => { q with retry := keepFlits (q.retry ++ [p]) }) with sent := i.sent ++ [(n, p)] }

/-- An answer of the island itself goes to its destination; this device's own goes to port 12, and one that finds no
way, or comes for a compute side that is not there, is discarded. -/
def State.reply (s : State) (p : Packet) : State :=
  if p.dst == s.ownId then (if s.island.state == .full then s.takeRefusal p else s.note IslandEvent.discarded p.kind)
  else
    match s.island.exit p.dst with
    | some n => s.modIsland fun i => i.transmit n p
    | none => s.note IslandEvent.discarded p.kind

/-- Refuse a packet, or discard one that is itself an answer (R345, R348). -/
def State.refuse (s : State) (p : Packet) (reason : Nat) : State :=
  if p.asks then s.reply (p.answerBy s.ownId 6 reason 0) else s.note IslandEvent.discarded p.kind

/-- A packet leaves for another device, or is answered with UNREACHABLE (R344). -/
def State.routeOut (s : State) (p : Packet) : State :=
  match s.island.exit p.dst with
  | some n => s.modIsland fun i => i.transmit n p
  | none => s.refuse p 6

/-! ## Packets for this package -/

/-- Whether the island's firmware runs and its links are up. -/
def Island.routing (i : Island) : Bool := i.state == .forward || i.state == .full || i.state == .drain

/-- A request passes port 12; until its answer has passed back the island keeps it in mind (R348). -/
def State.passIn (s : State) (p : Packet) : State :=
  s.modIsland fun i => { i with forwarded := i.forwarded ++ [p] }

/-- The compute side takes a packet. -/
def State.admitPacket (s : State) (p : Packet) : State :=
  match p.kind with
  | 0 | 1 | 2 => (s.passIn p).serve p
  | 3 =>
    match (s.passIn p).takeTask p with
    | .inl s => s
    | .inr r => s.reply (p.answer 6 r 0)
  | 4 => s.takeResponse p
  | 5 => s.takeAck p
  | 6 => s.takeRefusal p
  | _ => s

/-- A packet for this package's id: to the compute side while the island is FULL; otherwise requests are refused with
ORPHAN and answers are discarded (R348). Management packets are island firmware's. -/
def State.arrive (s : State) (p : Packet) : State :=
  if p.kind == 7 then s
  else if s.island.state == .full then s.admitPacket p
  else s.refuse p 5

/-- A packet of some kinds arrives for this package. -/
def arrivalStep (p : Packet) (kinds : List Nat) (st : State) : Host.Outcome State Fault Refusal :=
  if p.legal && kinds.contains p.kind && p.dst == st.ownId && st.island.routing then .next (st.arrive p)
  else .fault .notDue

/-- TASK_PACKET_ARRIVAL. -/
def execTaskPacketArrival (packet : Packet) (st : State) : Host.Outcome State Fault Refusal := arrivalStep packet [3] st

/-- REMOTE_REQUEST_ARRIVAL. -/
def execRemoteRequestArrival (packet : Packet) (st : State) : Host.Outcome State Fault Refusal :=
  arrivalStep packet [0, 1, 2] st

/-- RESPONSE_ARRIVAL. -/
def execResponseArrival (packet : Packet) (st : State) : Host.Outcome State Fault Refusal := arrivalStep packet [4] st

/-- ACKNOWLEDGEMENT_ARRIVAL. -/
def execAcknowledgementArrival (packet : Packet) (st : State) : Host.Outcome State Fault Refusal := arrivalStep packet [5] st

/-- NEGATIVE_ACK_ARRIVAL. -/
def execNegativeAckArrival (packet : Packet) (st : State) : Host.Outcome State Fault Refusal := arrivalStep packet [6] st

/-! ## PACKET_FORWARD (R270 to R272) -/

/-- A packet that has entered goes on: to port 12 for this package's id, or out. -/
def State.forward (s : State) (p : Packet) : State := if p.dst == s.ownId then s.arrive p else s.routeOut p

/-- The next packet at port 12 of its destination and channel: those of one path keep their order (R271), and those of a
higher channel go first (R270). -/
def State.nextOut (s : State) (p : Packet) : Bool :=
  (s.outPackets.find? fun q => q.dst == p.dst && q.vc == p.vc) == some p && s.outPackets.all fun q => decide (q.vc ≤ p.vc)

/-- A packet leaves the compute side; an answer settles the request that it answers (R348). -/
def State.passOut (s : State) (p : Packet) : State :=
  let s := { s with outPackets := s.outPackets.erase p }
  if p.asks then s
  else s.modIsland fun i => { i with forwarded := i.forwarded.filter fun q => !(q.tag == p.tag && q.src == p.dst) }

/-- Whether a packet may enter at a port. -/
def State.mayEnter (s : State) (port : Nat) (p : Packet) : Bool :=
  p.legal && s.island.routing &&
    if port < 12 then (s.island.port port).up
    else if port == 12 then s.portOpen && s.nextOut p
    else port == 13 && s.island.managementUp && p.kind == 7

/-- The virtual channel on which a packet waits at a port: transit traffic waits on VC2 (R270). -/
def State.channel (s : State) (port : Nat) (p : Packet) : Nat := if port < 12 && p.dst != s.ownId then 2 else p.vc

/-- The port by which a packet leaves the router, if it has one. -/
def State.outputOf (s : State) (p : Packet) : Option Nat := if p.dst == s.ownId then some 12 else s.island.exit p.dst

/-- Where the round robin of an output port and channel stands: the input port served last. -/
def Island.lastPort (i : Island) (output channel : Nat) : Nat := lookupD i.turns (4 * output + channel) 13

/-- A port has had its turn. -/
def State.serveTurn (s : State) (port : Nat) (p : Packet) : State :=
  match s.outputOf p with
  | some o => s.modIsland fun i => { i with turns := insertAt i.turns (4 * o + s.channel port p) port }
  | none => s

/-- PACKET_FORWARD: between two link ports a packet moves on VC2. -/
def execPacketForward (port : Nat) (packet : Packet) (st : State) : Host.Outcome State Fault Refusal :=
  if !st.mayEnter port packet then .fault .notDue
  else
    let s := st.serveTurn port packet
    if port == 12 then .next ((s.passOut packet).forward packet)
    else .next (s.forward { packet with vc := if port < 12 && packet.dst != st.ownId then 2 else packet.vc })

/-! ## Ports (R342 to R344) -/

/-- The packets of a port's retry buffer that the receiver has not acknowledged at link level: the last ones sent, how
many of them being open. -/
def Port.unconfirmed (q : Port) (tick : Nat) : List Packet := q.retry.drop (Config.choice tick % (q.retry.length + 1))

/-- A port goes down, and its packets leave by another way. -/
def State.dropPort (s : State) (n : Nat) (f : Port → Port) : State :=
  let again := (s.island.port n).unconfirmed s.tick
  let s := s.modIsland fun i => i.modPort n fun q => f { q with up := false, retry := [] }
  again.foldl State.routeOut s

/-- Island firmware retires a port (R343). -/
def State.retirePort (s : State) (n : Nat) : State :=
  let s := s.note IslandEvent.portRetired n
  let s := if s.island.state == .full then s.writeRecord { McRecord.blank 6 0 0 with info := BitVec.ofNat 64 n } else s
  s.dropPort n fun q => { q with retired := true }

/-- A replay of a bad flit: it succeeds, or is one more failure; eight failures make a retrain, and a retrain after
which eight more fail has failed; at the third of those in succession the port is to be retired. -/
def Port.replay (q : Port) (ok : Bool) : Port × Bool :=
  if ok then ({ q with failedReplays := 0, failedRetrains := 0, errors := q.errors + 1 }, false)
  else if q.failedReplays + 1 < 8 then ({ q with failedReplays := q.failedReplays + 1 }, false)
  else ({ q with failedReplays := 0, failedRetrains := q.failedRetrains + 1 }, decide (3 < q.failedRetrains + 1))

/-- LINK_FLIT_ERROR. -/
def execLinkFlitError (port : Nat) (replayed : Bool) (st : State) : Host.Outcome State Fault Refusal :=
  if decide (12 ≤ port) || !(st.island.port port).up then .fault .notDue
  else
    let r := (st.island.port port).replay replayed
    let s := st.modIsland fun i => i.modPort port fun _ => r.1
    .next (if r.2 then s.retirePort port else s)

/-- LINK_ERROR_WINDOW: more than 2^20 corrected errors in a window retire the port; the operand counts those that no step
of the model has shown. -/
def execLinkErrorWindow (port count : Nat) (st : State) : Host.Outcome State Fault Refusal :=
  if decide (12 ≤ port) || !(st.island.port port).up then .fault .notDue
  else
    let s := st.modIsland fun i => i.modPort port fun q => { q with errors := 0 }
    .next (if decide (2 ^ 20 < (st.island.port port).errors + count) then s.retirePort port else s)

/-- LINK_PORT_DOWN. -/
def execLinkPortDown (port : Nat) (st : State) : Host.Outcome State Fault Refusal :=
  if decide (12 ≤ port) || !(st.island.port port).up then .fault .notDue else .next (st.dropPort port fun q => q)

/-- A port comes up. -/
def Port.raise (q : Port) : Port := { q with up := true, retired := false, failedReplays := 0, failedRetrains := 0, errors := 0 }

/-- LINK_UP: a link that was down and whose port is not retired. -/
def execLinkUp (port : Nat) (st : State) : Host.Outcome State Fault Refusal :=
  if decide (12 ≤ port) || !st.island.routing || (st.island.port port).up || (st.island.port port).retired then .fault .notDue
  else .next (st.modIsland fun i => i.modPort port Port.raise)

/-- PORT_RESTORE_COMMAND: a management command brings a retired port back. -/
def execPortRestoreCommand (port : Nat) (st : State) : Host.Outcome State Fault Refusal :=
  if decide (12 ≤ port) || !st.island.managementUp || !(st.island.port port).retired then .fault .notDue
  else .next (st.modIsland fun i => i.modPort port Port.raise)

end Sys2Proof.Machine
end

