-- ==== Sys2Proof/Machine/Boot.lean ====
section
/-! DEFINITION. Island states, resets and power (R274, R275, R348 to R351), boot (R276, R277, R352) and attestation
(R278). Island.step counts the steps of Table 12.10 that have succeeded; `held` says that the next one has failed. -/

namespace Sys2Proof.Machine

/-! ## The island's own resets (R274, R350) -/

/-- This device's requests that stand in the retry buffers and are lost with them. -/
def Island.losing (i : Island) (tick : Nat) : List Packet :=
  (i.ports.flatMap fun q => q.unconfirmed tick).filter fun p => p.src == i.deviceId.toNat && decide (p.kind ≤ 2)

/-- A port of an island that resets: what a cold reset alone brings back stays retired (R343). -/
def Port.restart (q : Port) (cold : Bool) : Port := { Port.reset with retired := q.retired && !cold }

/-- The island resets or loses its rail: its links, its management port and port 12 are down, and it has no routes.
The fuses, what stands in flash and the device id of before stay, and the log unless power is lost. -/
def Island.restart (i : Island) (tick : Nat) (state : IslandState) (cold : Bool) : Island :=
  { i with
    state, step := 0, held := false, replaced := false, managementUp := false, port12Up := false
    ports := i.ports.map fun q => q.restart cold
    routes := [], images := [], log := if cold then [] else i.log, forwarded := []
    lost := if i.computeUp then i.lost ++ i.losing tick else [] }

/-- ISLAND_RAIL_GOOD. -/
def execIslandRailGood (st : State) : Host.Outcome State Fault Refusal :=
  if st.island.state == .off then .next (st.modIsland fun i => { i with state := .boot }) else .fault .notDue

/-- ISLAND_RAIL_LOST: the compute side, if it runs, keeps running. -/
def execIslandRailLost (st : State) : Host.Outcome State Fault Refusal :=
  .next (st.modIsland fun i => i.restart st.tick .off true)

/-- ISLAND_ONLY_RESET: from any state (Table 12.9). -/
def execIslandOnlyReset (st : State) : Host.Outcome State Fault Refusal :=
  .next (st.modIsland fun i => i.restart st.tick .boot false)

/-! ## The compute side ends (R275, R348, R349) -/

/-- The compute side of a package as it is after a reset or a loss of its power: of its state only core retirement
stands, which island firmware keeps (R354); device memory holds what nothing states. -/
def State.computeLost (s : State) (island : Island) : State :=
  { State.reset with
    mem := { era := s.mem.era + 1, cells := [] }
    cores := (s.cores.filter fun c => c.2.retired).map fun c => (c.1, { Core.reset with retired := true })
    island, inbox := s.inbox, msix := s.msix, hostReads := s.hostReads, tick := s.tick, nextUid := s.nextUid }

/-- The island as the compute side ends: FULL becomes DRAIN, and boot stands before step 5. A hold that waits for the
management command stays (R275, R349). -/
def Island.endCompute (i : Island) (byCommand : Bool) : Island :=
  { i with
    state := if i.state == .full then .drain else i.state
    step := Nat.min i.step 4
    held := i.held && decide (i.step < 4)
    bootHeld := byCommand || i.bootHeld, computeUp := false, port12Up := false, unavailable := false, accepted := [], lost := [] }

/-- The compute side ends, and the sources of requests that have no answer hear ORPHAN (R348). -/
def State.endCompute (s : State) (byCommand : Bool) (event info : Nat) : State :=
  let open_ := if s.island.state == .full then s.island.forwarded else []
  let s := (s.computeLost (s.island.endCompute byCommand)).note event info
  let s := s.modIsland fun i => { i with forwarded := [] }
  open_.foldl (fun s p => s.refuse p 5) s

/-- COMPUTE_ONLY_RESET: boot resumes by itself at step 5. -/
def execComputeOnlyReset (st : State) : Host.Outcome State Fault Refusal :=
  .next (st.endCompute false IslandEvent.computeReset 0)

/-- COMPUTE_POWER_OFF: boot resumes on a command. -/
def execComputePowerOff (st : State) : Host.Outcome State Fault Refusal :=
  .next (st.endCompute true IslandEvent.powerOff 0)

/-- REGULATOR_TRIP: the log names the regulator. -/
def execRegulatorTrip (regulator : Nat) (st : State) : Host.Outcome State Fault Refusal :=
  .next (st.endCompute true IslandEvent.regulatorTrip regulator)

/-- ISLAND_DRAIN_COMPLETE. -/
def execIslandDrainComplete (st : State) : Host.Outcome State Fault Refusal :=
  if st.island.state == .drain && st.island.forwarded.isEmpty then .next (st.modIsland fun i => { i with state := .forward })
  else .fault .notDue

/-- BOOT_RESUME_COMMAND: by the management port. -/
def execBootResumeCommand (st : State) : Host.Outcome State Fault Refusal :=
  if st.island.managementUp && st.island.bootHeld then .next (st.modIsland fun i => { i with bootHeld := false })
  else .fault .notDue

/-! ## The island comes back, or does not (R350, R351) -/

/-- Port 12's own answer to a packet of this device: UNREACHABLE. -/
def State.answerLocally (s : State) (p : Packet) : State := s.takeRefusal (p.answer 6 6 0)

/-- The SPAWNR packets that no acknowledgement of stage 0 has come for, and that do not wait at port 12. -/
def State.unaccepted (s : State) : List Packet :=
  (s.launches.filter fun l => l.state == .running).flatMap fun l =>
    (l.unsettled.filter fun t => !t.accepted && !s.outPackets.contains t.packet
      && !s.ops.any fun o =>
        match o.kind with
        | .spawnr _ _ (some p) => p == t.packet
        | _ => false).map Ticket.packet

/-- ISLAND_RETURN_FULL: lost requests are answered and unaccepted task packets sent again. -/
def execIslandReturnFull (st : State) : Host.Outcome State Fault Refusal :=
  let i := st.island
  if i.state == .forward && !i.held && decide (3 ≤ i.step) && i.computeUp && !i.port12Up then
    let s := st.modIsland fun i => { i with state := .full, step := 6, port12Up := true, unavailable := false, lost := [] }
    let s := { s with outPackets := s.outPackets ++ s.unaccepted }
    .next (i.lost.foldl State.answerLocally s)
  else .fault .notDue

/-- Answer the requests and SPAWNR packets that wait at port 12 (R351); responses and acknowledgements for others wait
on. -/
def State.answerWaiting (s : State) : State :=
  (s.outPackets.filter Packet.asks).foldl State.answerLocally { s with outPackets := s.outPackets.filter fun p => !p.asks }

/-- ISLAND_UNAVAILABLE: the island stays in OFF, or held in BOOT. -/
def execIslandUnavailable (st : State) : Host.Outcome State Fault Refusal :=
  if st.island.computeUp && (st.island.state == .off || (st.island.state == .boot && st.island.held)) then
    .next (State.answerWaiting (st.modIsland fun i => { i with unavailable := true }))
  else .fault .notDue

/-! ## Images (R277) -/

/-- The bytes of a bit vector, highest first. -/
def bytesOf {n : Nat} (w : BitVec n) : List Nat := toBytes (n / 8) w.toNat

/-- The SHA-384 digest of bytes. -/
def digestOf (bs : List Nat) : BitVec 384 := BitVec.ofNat 384 (ofBytes (sha384 bs))

/-- The digest of an image. -/
def imageDigest (m : Image) : BitVec 384 := digestOf (m.contents.map BitVec.toNat)

/-- The two public keys, as they travel in a manifest and as the fused digests take them. -/
def rsaKeyBytes (m : Image) : List Nat := bytesOf m.rsaModulus ++ bytesOf m.rsaExponent
def slhKeyBytes (m : Image) : List Nat := bytesOf m.slhKey

/-- The bytes of a manifest that the two signatures sign (log 58). -/
def manifestBytes (m : Image) : List Nat := bytesOf m.digest ++ bytesOf m.version ++ rsaKeyBytes m ++ slhKeyBytes m

/-- Both signatures of a manifest verify by the keys in it. -/
def signed (m : Image) : Bool :=
  rsaVerifies m.rsaModulus.toNat m.rsaExponent.toNat (manifestBytes m) m.rsaSignature.toNat
    && slhVerifies (slhKeyBytes m) (manifestBytes m) (bytesOf m.slhSignature)

/-- An image is used only if the manifest's digest is its own, both signatures verify by the fused keys and its version is
accepted. -/
def Island.accepts (i : Island) (m : Image) : Bool :=
  m.digest == imageDigest m && i.rsaKeyDigest == digestOf (rsaKeyBytes m) && i.slhKeyDigest == digestOf (slhKeyBytes m)
    && decide (i.minVersion ≤ m.version.toNat) && signed m

/-- Boot has read an image. -/
def Island.listImage (i : Island) (m : Image) : Island :=
  { i with images := i.images ++ [{ digest := imageDigest m, version := m.version, verified := i.accepts m }] }

/-- A step of boot succeeds. -/
def Island.pass (i : Island) : Island := { i with step := i.step + 1 }

/-- A step of boot fails: boot goes no further (R352). -/
def Island.fail (i : Island) : Island := { i.note IslandEvent.bootFailure (i.step + 1) with held := true }

/-- A step that reads images. -/
def Island.loadImages (i : Island) (ms : List Image) : Island :=
  let i' := ms.foldl Island.listImage i
  if ms.all i.accepts then i'.pass else i'.fail

/-- Whether boot stands before a step. -/
def Island.before (i : Island) (state : IslandState) (step : Nat) : Bool :=
  i.state == state && i.step + 1 == step && !i.held

/-! ## The steps of boot (R276, Table 21.4) -/

/-- ROOT_OF_TRUST_CHECK: step 1. -/
def execRootOfTrustCheck (fusesReadable : Bool) (st : State) : Host.Outcome State Fault Refusal :=
  if !st.island.before .boot 1 then .fault .notDue
  else .next (st.modIsland fun i => if fusesReadable then i.pass else { i with held := true })

/-- ISLAND_FIRMWARE_LOAD: step 2, from flash, where the recovery responder may have put another image. -/
def execIslandFirmwareLoad (image : Image) (st : State) : Host.Outcome State Fault Refusal :=
  if !st.island.before .boot 2 || (st.island.recovery.getD image) != image then .fault .notDue
  else .next (st.modIsland fun i => i.loadImages [image])

/-- RECOVERY_IMAGE: the responder answers while step 2 has failed, and accepts one image. -/
def execRecoveryImage (image : Image) (st : State) : Host.Outcome State Fault Refusal :=
  let i := st.island
  if i.state == .boot && i.step == 1 && i.held && !i.replaced then
    .next (st.modIsland fun i => { i with recovery := some image, replaced := true })
  else .fault .notDue

/-- The ports as they train: those that fail are retired (Table 21.4), and one already retired stays down. -/
def trainPorts (trained : BitVec 12) (ps : List Port) : List Port :=
  ps.mapIdx fun n q =>
    if q.retired then q else if trained.getLsbD n then q.raise else { Port.reset with retired := true }

/-- The ports that failed to train. -/
def failedPorts (trained : BitVec 12) (ps : List Port) : List Nat :=
  (List.range ps.length).filter fun n => !(ps.getD n Port.reset).retired && !trained.getLsbD n

/-- Step 3: the management port, the links, the device id and the routes; a port that fails is retired, and the step
has then failed, as it has where the routing table does not load (Table 21.4). -/
def Island.train (i : Island) (trained : BitVec 12) (c : IslandConfig) : Island :=
  let bad := failedPorts trained i.ports
  let i := { i with state := .forward, managementUp := true, deviceId := c.deviceId, routes := if c.loads then c.routes else []
                    ports := trainPorts trained i.ports }
  let i := bad.foldl (fun i n => i.note IslandEvent.portRetired n) i
  if bad.isEmpty && c.loads then i.pass else i.fail

/-- LINK_TRAINING: step 3. -/
def execLinkTraining (trained : BitVec 12) (config : IslandConfig) (st : State) : Host.Outcome State Fault Refusal :=
  if !st.island.before .boot 3 then .fault .notDue else .next (st.modIsland fun i => i.train trained config)

/-- BOOT_IMAGE_LOAD: step 4. -/
def execBootImageLoad (images : List Image) (st : State) : Host.Outcome State Fault Refusal :=
  if !st.island.before .forward 4 || st.island.computeUp then .fault .notDue
  else .next (st.modIsland fun i => i.loadImages images)

/-- B_DIE_RELEASE: step 5. -/
def execBDieRelease (images : List Image) (st : State) : Host.Outcome State Fault Refusal :=
  if !st.island.before .forward 5 || st.island.computeUp || st.island.bootHeld then .fault .notDue
  else .next (st.modIsland fun i => i.loadImages images)

/-- The compute dies run, and the island is FULL. -/
def Island.release (i : Island) : Island :=
  if i.held then i else { i with state := .full, computeUp := true, port12Up := true, unavailable := false }

/-- COMPUTE_DIE_RELEASE: step 6. -/
def execComputeDieRelease (images : List Image) (st : State) : Host.Outcome State Fault Refusal :=
  if !st.island.before .forward 6 || st.island.computeUp || st.island.bootHeld then .fault .notDue
  else .next (st.modIsland fun i => (i.loadImages images).release)

/-! ## Attestation (R278) -/

/-- The code of an island state in what a report signs. -/
def IslandState.code : IslandState → Nat
  | .off => 0
  | .boot => 1
  | .forward => 2
  | .full => 3
  | .drain => 4

/-- What the two identity keys sign of a report: all that it holds (log 58). -/
def Report.message (r : Report) : List Nat :=
  bytesOf r.nonce ++ toBytes 2 r.deviceId.toNat ++ [r.state.code]
    ++ r.images.flatMap fun m => bytesOf m.digest ++ bytesOf m.version ++ [bitOf m.verified]

/-- The SLH-DSA key of the device identity. -/
def identitySecret : SlhSecret :=
  { seed := bytesOf Config.identitySeed, prf := bytesOf Config.identityPrf
    publicSeed := (bytesOf Config.identityPublic).take 16, root := (bytesOf Config.identityPublic).drop 16 }

/-- A report signed by both identity keys. -/
def Report.sign (r : Report) (tick : Nat) : Report :=
  { r with
    rsaSignature := BitVec.ofNat 3072 (rsaSign Config.identityModulus.toNat Config.identityPrivate.toNat r.message
      (bytesOf (Config.signingSalt tick)))
    slhSignature := BitVec.ofNat 62848 (ofBytes (identitySecret.sign r.message (bytesOf (Config.signingRandom tick)))) }

/-- Whether a verifier accepts a report: both signatures verify by the public keys of the identity. -/
def Report.verifies (r : Report) (modulus : BitVec 3072) (exponent : W64) (key : BitVec 256) : Bool :=
  rsaVerifies modulus.toNat exponent.toNat r.message r.rsaSignature.toNat
    && slhVerifies (bytesOf key) r.message (bytesOf r.slhSignature)

/-- A report checked by the device's own public keys, which its certificate chains name. -/
def Report.genuine (r : Report) : Bool :=
  r.verifies Config.identityModulus Config.identityExponent Config.identityPublic

/-- ATTESTATION_REQUEST: by the management port. -/
def execAttestationRequest (nonce : BitVec 256) (st : State) : Host.Outcome State Fault Refusal :=
  if !st.island.managementUp then .fault .notDue
  else
    .next (st.modIsland fun i =>
      let r : Report :=
        { nonce, deviceId := i.deviceId, state := i.state, images := i.images, rsaSignature := 0#3072, slhSignature := 0#62848 }
      { i with reports := i.reports ++ [r.sign st.tick] })

end Sys2Proof.Machine
end

