-- ==== Sys2Proof/Machine/Claims.lean ====
section
/-! DEFINITION. CLAIM, FULFIL, RELINQ and FORGET: ops 0x67 and 0x68 (R249, R250). -/

namespace Sys2Proof.Machine

/-! ## CLAIM -/

/-- A claim name or key held in a run (R243). -/
def Lane.name (l : Lane) (a : BitVec 7) : BitVec 128 := l.read (runField a 1) ++ l.read a

/-- The wait of a thread whose CLAIM has no result yet: at once within a REP (R141), and otherwise once its clause retires
(R249); a wait that it is already to reach stands: that of a REWARP includes it, since flagged operations drain first
(R32). -/
def Thread.claimWait (t : Thread) (op : Nat) (now : Bool) : Thread :=
  if now then { t with blocked := .claim op }
  else if t.atRetire == .none then { t with atRetire := .claim op }
  else t

/-- A CLAIM that has no result yet stands in its entry's queue. -/
def State.claimWait (s : State) (i : Issue) (l op : Nat) : State :=
  match (s.op? op).map Op.kind with
  | some (.claim _ _ _ none) =>
    (s.modOp op fun o => { o with queued := true }).modThread i.cursor.team i.cursor.gang l fun t =>
      t.claimWait op i.path.rep.isSome
  | _ => s

/-- One lane's CLAIM reaches the home sync engine. Where its DONE finds no room in the trace store, the word traps with
TRACEFULL; its re-run finds the trace failed (R332). -/
def State.claimLane (s : State) (i : Issue) (l : Nat) (name : BitVec 128) (nb : Bool) (d h : Dest) : State × Fate :=
  match s.claimLack i.team i.cursor.gang (i.thread l) name with
  | some n =>
    (s.failTrace i.team.ctx Cause.tracefull (BitVec.ofNat 64 n) false, .trap { cause := Cause.tracefull, info := BitVec.ofNat 64 n })
  | none =>
    let s := s.addOp i l (.claim name d h none)
    let op := s.lastOp
    ((s.performClaim op i.cursor.team i.team.task name nb).claimWait i l op, .done)

/-- CLAIM: each lane's operation is pending until its result is delivered. -/
def execClaim (n : BitVec 1) (d a : BitVec 7) (st : State) : Host.Outcome State Fault Refusal :=
  match st.issue with
  | none => .fault .noIssuingPath
  | some i =>
    let check := fieldCheck i.word true [.dst d 2, .src a 2]
    let ok := i.active.filter fun l => (check (i.lane l)).isNone
    let bad := i.active.filterMap fun l => (check (i.lane l)).map fun t => (l, t)
    let acting := ok.filter fun l => !i.gang.inTx l
    let s := (st.beginWord i).modGang i.cursor.team i.cursor.gang fun g => g.issueFlag i.path
    let s := if acting.length < ok.length then s.modGang i.cursor.team i.cursor.gang fun g => g.doom 5 else s
    let st' := fun (l : Nat) => (i.lane l).dest d
    let h := fun (l : Nat) => (i.lane l).dest (runField d 1)
    if i.det && !acting.isEmpty then
      .next ((s.raiseAll i bad).stopAt i (acting.map fun l => (l, .claim ((i.lane l).name a) (n == 1#1) (st' l) (h l))))
    else
      let q := actLanes (fun l s => s.claimLane i l ((i.lane l).name a) (n == 1#1) (st' l) (h l)) acting s
      .next ((q.1.raiseAll i (sortTraps (bad ++ fateTraps q.2))).retireWord i)

/-! ## FULFIL, RELINQ and FORGET -/

/-- One operation for the lanes that name one entry. -/
structure EntryOp where
  name : BitVec 128
  handle : W64
  lanes : List Nat
  deriving DecidableEq, Repr

/-- Merge a lane into the operations; the lowest lane's handle stands (R250). -/
def mergeLane (es : List EntryOp) (l : Nat) (name : BitVec 128) (h : W64) : List EntryOp :=
  if es.any fun e => e.name == name then es.map fun e => if e.name == name then { e with lanes := e.lanes ++ [l] } else e
  else es ++ [{ name, handle := h, lanes := [l] }]

/-- The operations of a word. -/
def Issue.entryOps (i : Issue) (ls : List Nat) (a b : BitVec 7) : List EntryOp :=
  ls.foldl (fun es l => mergeLane es l ((i.lane l).name a) ((i.lane l).read b)) []

/-- CLAIM of a refused operation (R316, Table 18.1). -/
def claimTrap (fn state : Nat) : Trap := { cause := Cause.claim, info := BitVec.ofNat 64 (state + 16 * fn) }

/-- Perform the operations in order, collecting the traps of those refused. -/
def entryFold (task fn : Nat) : List EntryOp → State → State × List (Nat × Trap)
  | [], s => (s, [])
  | e :: es, s =>
    let q := s.performEntryOp task fn e.name e.handle
    let p := entryFold task fn es q.1
    (p.1, (match q.2 with
      | some st => e.lanes.map fun l => (l, claimTrap fn st)
      | none => []) ++ p.2)

/-- FULFIL, RELINQ or FORGET. A FULFIL is a release: it waits for the gang's stores and its lanes' reads. -/
def entryWord (st : State) (fn : Nat) (fs : List Field) (a b : BitVec 7) : Host.Outcome State Fault Refusal :=
  match st.issue with
  | none => .fault .noIssuingPath
  | some i =>
    let check := fieldCheck i.word true fs
    let ok := i.active.filter fun l => (check (i.lane l)).isNone
    let bad := i.active.filterMap fun l => (check (i.lane l)).map fun t => (l, t)
    let acting := ok.filter fun l => !i.gang.inTx l
    if fn == 0 && (st.releaseWaits i acting || fenceHolds i acting) then .next (st.hold i)
    else
      let s := st.beginWord i
      let s := if acting.length < ok.length then s.modGang i.cursor.team i.cursor.gang fun g => g.doom 5 else s
      let q := entryFold i.team.task fn (i.entryOps acting a b) s
      .next ((q.1.raiseAll i (sortTraps (bad ++ q.2))).retireWord i)

/-- FULFIL. -/
def execFulfil (a b : BitVec 7) (st : State) : Host.Outcome State Fault Refusal :=
  entryWord st 0 [.src a 2, .src b 1] a b

/-- RELINQ. -/
def execRelinq (a : BitVec 7) (st : State) : Host.Outcome State Fault Refusal := entryWord st 1 [.src a 2] a 112#7

/-- FORGET. -/
def execForget (a : BitVec 7) (st : State) : Host.Outcome State Fault Refusal := entryWord st 2 [.src a 2] a 112#7

end Sys2Proof.Machine
end

