-- ==== Sys2Proof/Machine/CrossLane.lean ====
section
/-! DEFINITION. The cross-lane instructions, majors 0x40 to 0x46 (R198 to R205). -/

namespace Sys2Proof.Machine

/-- A cross-lane word: each active thread receives a value, made of the active threads' sources, and flags. An active lane
that traps at the word takes no part in it, neither as a source nor in a rank; R198 names no such lane (DESIGN CHOICE, log
57). -/
def crossWord (st : State) (legal : Bool) (fs : List Field) (d : BitVec 7)
    (f : Issue → List Nat → Nat → W64 × Flags) : Host.Outcome State Fault Refusal :=
  pathWord st (fun _ => fieldCheck st.curWord legal fs) fun i ok s =>
    s.modGang i.cursor.team i.cursor.gang fun g =>
      g.mapLanes ok fun l t => (setReg (i.lane l) d (f i ok l).1 t).orFp (f i ok l).2

/-- The source element that a selector names, or 0 where its lane is not active (R62, R199). Row 2 of Table 13.6 (R282)
speaks of lanes 0 to 5 as those that the stored sum leaves out; lane 0 stores, and by R26 and R199 its path leaves out lanes
6 to 31, which is followed here (DESIGN CHOICE, log 31). -/
def selectElem (i : Issue) (ok : List Nat) (a : BitVec 7) (e v : Nat) : Nat :=
  let lane := field v 3 5
  if ok.contains lane then elem ((i.lane lane).read a) e (field v 0 3 % (64 / e)) else 0

/-- SHFL (R199). -/
def execShfl (e : BitVec 2) (d a b : BitVec 7) (st : State) : Host.Outcome State Fault Refusal :=
  crossWord st true (regs3 d a b) d fun i ok l =>
    (mapElems (width e) ((i.lane l).read b) (selectElem i ok a (width e)), 0#5)

/-- BCST (R200). -/
def execBcst (e : BitVec 2) (d a b : BitVec 7) (st : State) : Host.Outcome State Fault Refusal :=
  crossWord st true (regs3 d a b) d fun i ok _ =>
    let v := match ok.head? with
      | some l => field ((i.lane l).read b).toNat 0 8
      | none => 0
    (pack (width e) (List.replicate (64 / width e) (selectElem i ok a (width e) v)), 0#5)

/-- The element vector of the active threads, in rank order (R201). -/
def elemVector (i : Issue) (ok : List Nat) (a : BitVec 7) (e : Nat) : List Nat :=
  ok.flatMap fun l => elems ((i.lane l).read a) e

/-- SLIDE: v = 0 moves up, v = 1 moves down; the fill is the thread's own element of b (R201). -/
def execSlide (e : BitVec 2) (v : BitVec 1) (d a b : BitVec 7) (st : State) : Host.Outcome State Fault Refusal :=
  crossWord st true (regs3 d a b) d fun i ok l =>
    let n := 64 / width e
    let vec := elemVector i ok a (width e)
    let rank := (ok.filter fun k => k < l).length
    (pack (width e) ((List.range n).map fun j =>
      let q := rank * n + j
      let fill := elem ((i.lane l).read b) (width e) j
      if v = 0#1 then (if q = 0 then fill else vec.getD (q - 1) 0) else vec.getD (q + 1) fill), 0#5)

/-! ## Scans and reductions (R202 to R204, Table 8.8) -/

/-- Combine two e-bit elements. -/
def combine (o e x y : Nat) : Nat × Flags :=
  match o with
  | 0 => ((x + y) % 2 ^ e, 0#5)
  | 1 => (if signExtend y e < signExtend x e then y else x, 0#5)
  | 2 => (if signExtend x e < signExtend y e then y else x, 0#5)
  | 3 => (min x y, 0#5)
  | 4 => (max x y, 0#5)
  | 5 => (x &&& y, 0#5)
  | 6 => (x ||| y, 0#5)
  | _ => let r := f64.add .rne (f64.decode x) (f64.decode y); (r.bits, r.flags)

/-- The identity of an operation. -/
def scanIdentity (o e : Nat) : Nat :=
  match o with
  | 1 => 2 ^ (e - 1) - 1
  | 2 => 2 ^ (e - 1)
  | 3 | 5 => 2 ^ e - 1
  | _ => 0

/-- The combination of a list of elements in rank order: the identity for none, and for one that element itself. -/
def combineAll (o e : Nat) : List Nat → Nat × Flags
  | [] => (scanIdentity o e, 0#5)
  | v :: vs => vs.foldl (fun acc x => let r := combine o e acc.1 x; (r.1, acc.2 ||| r.2)) (v, 0#5)

/-- The element-wise combination of the registers of a list of lanes. -/
def combineLanes (i : Issue) (o e : Nat) (a : BitVec 7) (ls : List Nat) : W64 × Flags :=
  let rs := (List.range (64 / e)).map fun j => combineAll o e (ls.map fun k => elem ((i.lane k).read a) e j)
  (pack e (rs.map Prod.fst), rs.foldl (fun f r => f ||| r.2) 0#5)

/-- The checks of LSCAN and LRED: .fadd takes 64-bit elements only. -/
def scanFields (o : BitVec 3) (d a : BitVec 7) (e : BitVec 2) : List Field :=
  regs2 d a ++ [.must (o != 7#3 || e == 3#2) e.toNat]

/-- LSCAN (R202). -/
def execLscan (i : BitVec 1) (o : BitVec 3) (d a : BitVec 7) (e : BitVec 2) (st : State) :
    Host.Outcome State Fault Refusal :=
  crossWord st true (scanFields o d a e) d fun is ok l =>
    combineLanes is o.toNat (width e) a (ok.filter fun k => k < l || (i == 1#1 && k == l))

/-- The first lane of the segment of a lane: the highest head at or below it, the lowest active lane being one (R203). -/
def segmentStart (i : Issue) (ok : List Nat) (b : BitVec 7) (l : Nat) : Nat :=
  (ok.filter fun k => k ≤ l && ((i.lane k).read b != 0#64 || ok.head? == some k)).getLast?.getD l

/-- LSSCAN (R203). -/
def execLsscan (i : BitVec 1) (o : BitVec 3) (d a b : BitVec 7) (st : State) : Host.Outcome State Fault Refusal :=
  crossWord st true (regs3 d a b) d fun is ok l =>
    combineLanes is o.toNat 64 a
      (ok.filter fun k => segmentStart is ok b l ≤ k && (k < l || (i == 1#1 && k == l)))

/-- LRED (R204). -/
def execLred (i : BitVec 1) (o : BitVec 3) (d a : BitVec 7) (e : BitVec 2) (st : State) :
    Host.Outcome State Fault Refusal :=
  crossWord st true (scanFields o d a e) d fun is ok l =>
    combineLanes is o.toNat (width e) a (ok.filter fun k => i == 1#1 || k != l)

/-- ISECT (R205, Table 8.10). -/
def execIsect (d a b : BitVec 7) (st : State) : Host.Outcome State Fault Refusal :=
  crossWord st true (regs3 d a b) d fun i ok l =>
    let va := fun k => ((i.lane k).read a).toNat
    let vb := fun k => ((i.lane k).read b).toNat
    let top := fun (v : Nat → Nat) => (ok.map v).foldl max 0
    let c := min (top va) (top vb)
    let hits := maskOf (ok.filter fun k => vb k == va l)
    let advA := (ok.filter fun k => va k ≤ c).length
    let advB := (ok.filter fun k => vb k ≤ c).length
    (BitVec.ofNat 64 (hits.toNat + advA * 2 ^ 32 + advB * 2 ^ 40), 0#5)

end Sys2Proof.Machine
end

