-- ==== Sys2Proof/Machine/Tasks.lean ====
section
/-! DEFINITION. SPAWN, SPAWNR and TAIL: op 0x66 (R244 to R248), with OnSpawn of R120. -/

namespace Sys2Proof.Machine

/-- Under DET, whether it is a gang's turn to spawn (R245). -/
def State.spawnTurn (s : State) (i : Issue) : Bool := !i.det || s.spawnsFirst i.team i.cursor.gang i.gang

/-! ## Reading the descriptor (R246) -/

/-- What the read of a descriptor comes to. -/
inductive DescRead where
  | desc (d : Desc)
  | fate (f : Fate)
  deriving DecidableEq, Repr

/-- Read the 64 bytes of a descriptor as they stand at their home or target. -/
def State.takeDesc (s : State) (i : Issue) (r : Reached) : State × DescRead :=
  if isRemote r.pa then (s, .desc (descOf ((i.path.fetchedBytes? r.pa 64).getD [])))
  else if s.poisonedAt r.pa 64 then
    (s.consumePoison i.cursor.team i.cursor.gang r.lane r.pa i.path.prefixAddr, .fate .done)
  else (s, .desc (descOf (s.mem.readBytes r.pa 64)))

/-- The read of a descriptor, recorded if the granule is tracked (R108, R111). -/
def State.readDesc (s : State) (i : Issue) (r : Reached) : State × DescRead :=
  let g := granuleOf r.access.va
  let s := if (i.thread r.lane).recording then s.recorderAt i r.access.va r.leaf else s
  match s.tracedAt i r.leaf, (i.thread r.lane).recording with
  | some t, true =>
    match t.readFate g (pteDerived r.leaf) (i.thread r.lane).claimsDone with
    | .order => (s, .fate (.trap { cause := Cause.traceorder, info := granuleAddr g }))
    | .wait => (s, .fate (.park (.writer i.team.ctx g)))
    | .proceed a =>
      match s.recordRead t i.cursor.team i.cursor.gang (.granule g) a with
      | (s, some n) => (s, .fate (.trap { cause := Cause.tracefull, info := BitVec.ofNat 64 n }))
      | (s, none) => s.takeDesc i r
  | _, _ =>
    if s.loadsOpen i r.lane r.access.va r.leaf && !s.poisonedAt r.pa 64 then
      (s, .desc (descOf (s.unsettledBytes i.team.ctx r.lane r.access.va r.pa 64)))
    else s.takeDesc i r

/-! ## Children -/

/-- What a lane's spawn asks for; a queue handle makes it a SPAWNR. -/
structure SpawnAsk where
  desc : Desc
  addr : W64
  key : BitVec 128
  positional : Bool
  handle : Option W64
  deriving DecidableEq, Repr

/-- The key of a spawn: the positional index, or the run b, b + 1 (R107). -/
def spawnKey (l : Lane) (b : BitVec 7) (index : Nat) : BitVec 128 × Bool :=
  if b = 112#7 then (BitVec.ofNat 128 index, true) else (l.read (runField b 1) ++ l.read b, false)

/-- The issuing task as it stands. -/
def State.taskNow (s : State) (i : Issue) : Task := (s.task? i.team.task).getD i.task

/-- The spawn has created, spliced or matched a child: it takes an index, and its key stands for the run. -/
def State.countSpawn (s : State) (i : Issue) (a : SpawnAsk) : State :=
  s.modTask i.team.task fun k =>
    { k with spawnIndex := k.spawnIndex + 1
             programKeys := if a.positional then k.programKeys else k.programKeys ++ [a.key] }

/-- A child task of the issuing task (R39, R45, R46, R53). -/
def State.childTask (s : State) (i : Issue) (a : SpawnAsk) (place : List (List Nat)) (weight : Nat) : Task :=
  let p := s.taskNow i
  { uid := s.nextUid, launch := p.launch, parent := some p.uid, rootIndex := p.rootIndex, position := place
    ordinal := 0#64, posKey := detHash p.posKey (BitVec.ofNat 64 (p.spawnIndex + 1)), key := a.key, positional := a.positional
    desc := a.desc, descAddr := a.addr, weight := if a.handle.isSome then 0 else weight, pooled := p.pooled, spawnIndex := 0
    programKeys := [], reexec := false, written := Memory.empty, writtenAt := [], startClock := (s.gangNow i).clock + 1
    arrival := s.nextUid, state := if a.handle.isSome then .remote else .waiting, originCore := i.team.core
    counted := false, avoid := [], audit := none, handle := a.handle }

/-- The ordinal of a task, as a spawn returns it. -/
def State.ordinalOfTask (s : State) (l : Launch) (task : Nat) : W64 :=
  match s.task? task with
  | some k => ordinalOf l k
  | none => 0#64

/-! ## Packets of SPAWNR (R247) -/

/-- Send one task packet: descriptor in the first flit, key, weight, ticket and LAUNCHID in the second. Its ticket is
unsettled until the destination answers. -/
def State.sendTask (s : State) (i : Issue) (l : Nat) (d : BitVec 7) (a : SpawnAsk) (h : W64) (weight : Nat) : State :=
  let p := s.taskNow i
  let n := ((s.launch? i.launch.uid).map Launch.sendCount).getD 0 + 1
  let pkt : Packet :=
    { dst := field h.toNat 0 14, src := s.island.deviceId.toNat, vc := 0, flits := 2, kind := 3, tag := s.nextUid % 2 ^ 24, addr := h
      payload := bytesOfNat 64 a.desc.toNat ++ bytesOfNat 16 a.key.toNat ++ bytesOfNat 8 weight ++ bytesOfNat 8 n
        ++ bytesOfNat 8 i.launch.record.toNat ++ List.replicate 24 0#8 }
  let t : Ticket :=
    { number := n, weight, ordinal := ordinalOf i.launch p, packet := pkt, accepted := false, pooled := p.pooled }
  let s := s.modLaunch i.launch.uid fun x => { x with sendCount := n, unsettled := x.unsettled ++ [t] }
  s.addOp i l (.spawnr ((i.lane l).dest d) (BitVec.ofNat 64 n) (some pkt))

/-- The result of a spawn whose operation has nothing left to do outside the device. -/
def State.spawnResult (s : State) (i : Issue) (l : Nat) (d : BitVec 7) (v : W64) : State :=
  (s.addOp i l (.spawn ((i.lane l).dest d) v)).auditLog i.cursor.team (.result i.cursor.gang l v)

/-- The ticket that the next SPAWNR of the launch takes. -/
def State.nextTicket (s : State) (i : Issue) : W64 :=
  BitVec.ofNat 64 (((s.launch? i.launch.uid).map Launch.sendCount).getD 0 + 1)

/-- Start a new child: a task of this launch with its result, or a packet. -/
def State.launchChild (s : State) (i : Issue) (l : Nat) (d : BitVec 7) (a : SpawnAsk) (task weight : Nat) : State :=
  match a.handle with
  | some h => (s.sendTask i l d a h weight).auditLog i.cursor.team (.result i.cursor.gang l (s.nextTicket i))
  | none => s.spawnResult i l d (s.ordinalOfTask i.launch task)

/-! ## A spawn without and with a trace -/

/-- A spawn of a task that no trace records. -/
def State.spawnPlain (s : State) (i : Issue) (l : Nat) (d : BitVec 7) (a : SpawnAsk) : State :=
  let p := s.taskNow i
  match s.dealWeight p.uid with
  | (s, w) =>
    let k := s.childTask i a (p.position ++ [[p.spawnIndex + 1, 0]]) w
    let s := if a.handle.isSome then s else s.addTask k
    (s.launchChild i l d a k.uid w).countSpawn i a

/-- NewChild: a child with a node and an edge of its own. -/
def State.newChild (s : State) (i : Issue) (t : Trace) (n : Node) (l : Nat) (d : BitVec 7) (a : SpawnAsk) : State × Fate :=
  if !t.room 80 0 then
    (s.failTrace t.ctx Cause.tracefull 80#64 false, .trap { cause := Cause.tracefull, info := 80#64 })
  else
    match s.dealWeight n.task with
    | (s, w) =>
      let k := s.childTask i a (t.newPlace n) w
      let remote := a.handle.map fun h => (s.nextTicket i, h)
      let s := (s.addTask k).modTrace t.ctx fun t => t.addNode { Node.fresh k with remote }
      ((s.launchChild i l d a k.uid w).countSpawn i a, .done)

/-- A matched child's descriptor changes. -/
def State.setDesc (s : State) (ctx child : Nat) (a : SpawnAsk) : State :=
  (s.modTrace ctx fun t => t.modNode child fun c => { c with descDigest := digestDesc a.desc }).modTask child fun k =>
    { k with desc := a.desc, descAddr := a.addr }

/-- A SPAWN that matches an old child (R120): spliced, left running, or started again with dealt weight. -/
def State.matchLocal (s : State) (i : Issue) (t : Trace) (n c : Node) (l : Nat) (d : BitVec 7) (a : SpawnAsk) : State :=
  let s := s.modTrace t.ctx fun t => t.matched n.task c.task a.addr
  let same := c.descDigest == digestDesc a.desc
  let s :=
    if c.state == .live && same then s.modTrace t.ctx fun t => { t with propSpliced := t.propSpliced + 1 }
    else if c.state == .running || c.state == .reexec || c.state == .remarked then
      if same then s.modTask c.task fun k => { k with descAddr := a.addr }
      else (s.setDesc t.ctx c.task a).modTrace t.ctx fun t => t.mark c.task
    else
      match (s.setDesc t.ctx c.task a).dealWeight n.task with
      | (s, w) =>
        (s.startReexec t.ctx c.task w (s.taskNow i).pooled).modTask c.task fun k =>
          { k with startClock := (s.gangNow i).clock + 1, originCore := i.team.core }
  (s.spawnResult i l d (s.ordinalOfTask i.launch c.task)).countSpawn i a

/-- A SPAWNR that matches an old remote child: spliced, or sent anew (R247). -/
def State.matchRemote (s : State) (i : Issue) (t : Trace) (n c : Node) (l : Nat) (d : BitVec 7) (a : SpawnAsk) (h : W64) :
    State :=
  let s := s.modTrace t.ctx fun t => t.matched n.task c.task a.addr
  let old := c.remote.getD (0#64, 0#64)
  if c.state == .live && old.2 == h && c.descDigest == digestDesc a.desc then
    let s := s.modTrace t.ctx fun t => { t with propSpliced := t.propSpliced + 1 }
    (s.spawnResult i l d old.1).countSpawn i a
  else
    match (s.setDesc t.ctx c.task a).dealWeight n.task with
    | (s, w) =>
      let s := s.modTrace t.ctx fun t => t.modNode c.task fun x =>
        { x with state := .running, remote := some (s.nextTicket i, h) }
      (s.launchChild i l d a c.task w).countSpawn i a

/-- A spawn of a traced task (R107, R120, R245). -/
def State.spawnTraced (s : State) (i : Issue) (t : Trace) (n : Node) (l : Nat) (d : BitVec 7) (a : SpawnAsk) :
    State × Fate :=
  if !a.positional && (s.taskNow i).programKeys.contains a.key then
    (s, .trap { cause := Cause.traceconflict, info := a.key.setWidth 64 })
  else
    match if n.isRerun then t.matchChild n a.key a.positional a.handle.isSome else none with
    | none => s.newChild i t n l d a
    | some c =>
      if t.outOfOrder n c then (s, .trap { cause := Cause.traceorder, info := a.key.setWidth 64 })
      else if !t.room 16 0 then
        (s.failTrace t.ctx Cause.tracefull 16#64 false, .trap { cause := Cause.tracefull, info := 16#64 })
      else
        match a.handle with
        | some h => (s.matchRemote i t n c l d a h, .done)
        | none => (s.matchLocal i t n c l d a, .done)

/-! ## The words -/

/-- CheckDesc's second item; a SPAWNR's demand is the destination's to check (R246, R247). -/
def descTrap (s : State) (i : Issue) (remote : Bool) (d : Desc) : Option Trap :=
  if d.mbz != 0#512 || !d.faults.isEmpty || (!remote && d.exceeds s i.launch) then some (illopnd i.word 0) else none

/-- One lane of SPAWN or SPAWNR. -/
def State.spawnLane (s : State) (i : Issue) (d b : BitVec 7) (handle : Lane → Option W64) (r : Reached) : State × Fate :=
  match s.readDesc i r with
  | (s, .fate f) => (s, f)
  | (s, .desc x) =>
    let h := handle (i.lane r.lane)
    match descTrap s i h.isSome x with
    | some t => (s, .trap t)
    | none =>
      let key := spawnKey (i.lane r.lane) b (s.taskNow i).spawnIndex
      let a : SpawnAsk := { desc := x, addr := r.access.va, key := key.1, positional := key.2, handle := h }
      let s := if (s.traced? i.team.ctx i.team.launch i.team.task).isSome then s.recorderReads i.team.ctx (some i.team.task) []
        else s
      match s.traced? i.team.ctx i.team.launch i.team.task with
      | none => (s.spawnPlain i r.lane d a, .done)
      | some t =>
        match t.trace.node? t.task with
        | none => (s.spawnPlain i r.lane d a, .done)
        | some n => s.spawnTraced i t.trace n r.lane d a

/-- When a spawn waits: a release until the gang's stores are acknowledged and the lanes' reads have bound, under DET
its turn, for a writer that is not LIVE, and for bytes of the system window. -/
def spawnStall (s : State) (i : Issue) (rs : List Reached) : Option Stall :=
  if rs.isEmpty then none
  else if s.releaseWaits i (rs.map Reached.lane) || s.behind i (rs.map Reached.lane) || !s.spawnTurn i then some .hold
  else
    match loadStall s i rs with
    | some x => some x
    | none => (rs.find? fun r => isRemote r.pa && (i.path.fetchedBytes? r.pa 64).isNone).map fun r => .fetch r.pa 64 false

/-- SPAWN or SPAWNR. -/
def spawnWord (st : State) (check : Lane → Option Trap) (addr : Lane → W64) (d b : BitVec 7)
    (handle : Lane → Option W64) : Host.Outcome State Fault Refusal :=
  MemWord.exec
    { flagged := true, dooms := true, sync := none, check
      access := fun l => { va := addr l, size := 64, need := .load, code := 4 }
      stall := spawnStall
      again := fun i r s => (s.giveLogged i [r.lane] d fun _ => 0#64, .done)
      act := fun i r s => s.spawnLane i d b handle r } st

/-- SPAWN. -/
def execSpawn (d a b : BitVec 7) (st : State) : Host.Outcome State Fault Refusal :=
  spawnWord st (fieldCheck st.curWord true [.dst d 1, .src a 1, .src b 2]) (fun l => l.read a) d b fun _ => none

/-- The check of SPAWNR: its fields, then the reserved field of the handle. -/
def spawnrCheck (st : State) (d a b : BitVec 7) (l : Lane) : Option Trap :=
  (fieldCheck st.curWord true [.dst d 1, .src a 2, .src b 2] l).or
    (if field (l.read a).toNat 48 16 != 0 && !((st.issue.map fun i => i.gang.inTx l.lane).getD false) then
      some (illopnd st.curWord (field (l.read a).toNat 48 16))
    else none)

/-- SPAWNR. -/
def execSpawnr (d a b : BitVec 7) (st : State) : Host.Outcome State Fault Refusal :=
  spawnWord st (spawnrCheck st d a b) (fun l => l.read (runField a 1)) d b fun l => some (l.read a)

/-- One lane of TAIL: nothing in a re-execution, nor in a replay (R338). -/
def State.tailLane (s : State) (i : Issue) (d a : BitVec 7) (l : Nat) : State × Fate :=
  if i.replays then (s.giveLogged i [l] d fun _ => 0#64, .done)
  else
  let k := s.taskNow i
  let n := ((s.launch? i.launch.uid).map Launch.tailCount).getD 0 + 1
  let v : W64 := if k.reexec then 0#64 else BitVec.ofNat 64 n
  let s := if k.reexec then s
    else s.modLaunch i.launch.uid fun x => { x with tailCount := n, tails := x.tails ++ [(k.position, n, (i.lane l).read a)] }
  (s.giveLogged i [l] d fun _ => v, .done)

/-- TAIL. -/
def execTail (d a : BitVec 7) (st : State) : Host.Outcome State Fault Refusal :=
  SyncWord.exec
    { check := fun i l =>
        (fieldCheck i.word true [.dst d 1, .src a 1] l).or
          (if (l.read a).toNat % 256 != 0 && !i.gang.inTx l.lane then some { cause := Cause.align, info := l.read a } else none)
      wait := fun _ _ _ => false
      sync := none
      act := fun i l s => s.tailLane i d a l } st

end Sys2Proof.Machine
end

