-- ==== Sys2Proof/Machine/Reckoner.lean ====
section
/-! DEFINITION. RECKONER_START_TASK: the reckoner starts the least startable STALE task (R105, R119, R331). -/

namespace Sys2Proof.Machine

/-- Whether a task is parked (R111): a thread of its team waits for a writer, and no thread can go on. -/
def State.taskParked (s : State) (task : Nat) : Bool :=
  match s.teams.find? fun t => t.task == task with
  | some t =>
    (t.liveThreads.all fun x => x.2.2.blocked != .none) && t.liveThreads.any fun x =>
      match x.2.2.blocked with
      | .writer .. => true
      | _ => false
  | none => false

/-- Tasks that the reckoner started, and that run and are not parked. -/
def State.reckonerLoad (s : State) (t : Trace) : Nat := (t.started.filter fun k => !s.taskParked k).length

/-- Whether a node's ancestors have all settled. -/
def Trace.unblocked (t : Trace) (n : Node) : Bool := t.nodes.all fun a => !(a.busy && t.descends n.task a.task)

/-- The least startable STALE node. -/
def Trace.nextStale (t : Trace) : Option Node :=
  leastBy (fun a b => posLt a.position b.position)
    (t.nodes.filter fun n => n.state == .stale && n.remote.isNone && t.unblocked n && !t.stopping.contains n.task)

/-- Whether a sector of the trace store that the reckoner reads as it starts a node is poisoned: the header, the records
in use, and the index entries of the node's reads. -/
def State.storePoisoned (s : State) (t : Trace) (n : Node) : Bool :=
  s.anyPoisoned t (0 :: (List.range (t.recordUsed / 64 + 1)).map fun k => t.recordBase + 64 * k)
    || s.anyPoisoned t (n.reads.map t.indexSector)

/-- The reckoner starts a node with a descriptor. -/
def State.reckonerStart (s : State) (t : Trace) (n : Node) (d : BitVec 512) : State :=
  match s.dealFromPool t.launch with
  | (s, w) =>
    let s := (s.modTask n.task fun k => { k with desc := d }).modTrace t.ctx fun t =>
      { t.modNode n.task fun n => { n with descDigest := digestDesc d } with started := t.started ++ [n.task] }
    s.startReexec t.ctx n.task w true

/-- What follows the read of a descriptor (R119). A root descriptor that has become inadmissible counts as one that
cannot be read (DESIGN CHOICE, log 38). -/
def State.reckonerDesc (s : State) (t : Trace) (n : Node) (d : BitVec 512) : State :=
  match n.parent with
  | some p => if digestDesc d == n.descDigest then s.reckonerStart t n d else s.modTrace t.ctx fun t => t.mark p
  | none =>
    match s.launch? t.launch with
    | some l =>
      let d := match l.packet with
        | some p => p.desc
        | none => d
      if Desc.bad d s l then s.failTrace t.ctx Cause.illopnd 0#64 false else s.reckonerStart t n d
    | none => s

/-- RECKONER_START_TASK. -/
def execReckonerStartTask (ctx : Nat) (st : State) : Host.Outcome State Fault Refusal :=
  match (st.actingTrace? ctx).bind fun t => t.nextStale.map fun n => (t, n) with
  | none => .fault .notDue
  | some (t, n) =>
    if t.state == .ready || st.reckonerLoad t ≥ t.window then .fault .notDue
    else if st.storePoisoned t n then .next (st.failTrace ctx Cause.poison 0#64 false)
    else
      match st.unitRead ctx n.descAddr 64 with
      | (s, .pending) => .next s
      | (s, .failed c) => .next (s.failTrace ctx c 0#64 false)
      | (s, .bytes bs) => .next (s.reckonerDesc t n (descOf bs))

end Sys2Proof.Machine
end

