-- ==== Sys2Proof/Machine/Det.lean ====
section
/-! DEFINITION. DET_GRANT: the order of grants, what each performs, the advance of parked gangs, and DEADLOCK
(R54, R295, R296, R308). -/

namespace Sys2Proof.Machine

/-! ## Performing -/

/-- A write of a granted atomic or commit has reached memory; `wrote` says whether one has. -/
structure Granted where
  state : State
  fate : Fate
  wrote : Bool

def Granted.quiet (p : State × Fate) : Granted := { state := p.1, fate := p.2, wrote := false }

/-- The newest entry of a core's store path leaves for its target. -/
def State.sendNewest (s : State) (core : Nat) : State :=
  match (s.core core).stores.getLast? with
  | some x => s.sendStore core x
  | none => s

/-- An atomic, CAS or reduction at its sync engine; one of the system window leaves for its target, and no grant of the
launch follows before it has been performed there (R93). -/
def State.grantAtomic (s : State) (i : Issue) (l : Nat) (a : SyncAct) (reduction : Bool) : Granted :=
  let s := s.sendAtomic i a.phys
  if isRemote a.phys then
    match a with
    | .reduce op size va pa v =>
      .quiet ((s.addStore i l va pa (bytesOfNat size v.toNat) (.reduce op) false).sendNewest i.team.core, .done)
    | _ =>
      let s := s.addOp i l (.atomic a)
      .quiet (s.sendRequest a.phys 2 a.flit fun r => { r with op := some s.lastOp }, .done)
  else
    match s.performAtomic a with
    | .poisoned => .quiet (s.consumePoison i.cursor.team i.cursor.gang l a.phys i.path.prefixAddr, .done)
    | .done s old sat fp =>
      let wrote := (a.atomicOn old).isSome
      let s := if reduction then s else s.addOp i l (.returned a.dest old sat fp)
      { state := s, fate := .done, wrote }

/-- The threads of a TXC: the log leaves and is committed, and each lane has its status, or waits for it where the log
names the system window. -/
def State.grantTxc (s : State) (i : Issue) (dests : List (Nat × Dest)) : Granted :=
  let c := (s.modGang i.cursor.team i.cursor.gang fun g => g.sendLog i.path.lanes).commitTx i.cursor.team i.cursor.gang
  let g := c.gangNow i
  { state := dests.foldl (fun s d =>
      s.addOp i d.1 (.txc d.2 (if g.txSent && i.gang.inTx d.1 then none else some (g.txcStatus d.1)))) c
    fate := .done, wrote := g.txWrote }

/-- Perform one lane's operation. -/
def State.grantAct (s : State) (i : Issue) (l : Nat) (a : SyncAct) : Granted :=
  let t := i.cursor.team
  let g := i.cursor.gang
  match a with
  | .atomic .. | .cas .. => s.grantAtomic i l a false
  | .reduce .. => s.grantAtomic i l a true
  | .waitf c va pa b d =>
    .quiet ((s.modThread t g l fun th => { th with blocked := .waitf c va pa b d false i.path.prefixAddr }).observeNow t g l pa, .done)
  | .claim name nb st h => .quiet (s.claimLane i l name nb st h)
  | .txc ds => s.grantTxc i ds
  | .arrive id wait => .quiet (s.arriveLane t g l id wait)
  | .gbar => .quiet (s.gbarLane t g l i.launch.uid)
  | .rewarp key n => .quiet (s.rewarpLane i l key n)

/-- A word's grants have begun or go on: its flag is set, and busy while lanes have yet to be granted (R138, R295). -/
def Gang.grantFlag (g : Gang) (p : Path) (last : Bool) : Gang :=
  if !flaggedWord (p.words.getD p.pos 0#32) then g
  else if last then g.issueFlag p
  else (g.issueFlag p).modPath p.uid fun q => { q with busyFlag := p.flag }

/-- A lane's grant within its word: the word retires with the last. -/
def State.grantWord (s : State) (c : Cursor) : Granted :=
  match s.issueAt c with
  | none => .quiet (s, .done)
  | some i =>
    match i.path.grants with
    | [] => .quiet (s, .done)
    | (l, a) :: rest =>
      let s := (s.modPath c fun p => { p with grants := rest, held := false }).modGang c.team c.gang fun g =>
        g.grantFlag i.path rest.isEmpty
      let q := s.grantAct i l a
      let s := match q.fate with
        | .trap t => q.state.raiseAll i [(l, t)]
        | _ => q.state
      { q with state := if rest.isEmpty then s.retireWord i else s }

/-- Perform the pending operation of a gang. -/
def State.grantPending (s : State) (team gang : Nat) (p : Pending) : Granted :=
  match p with
  | .word path => s.grantWord { team, gang, path }
  | .observe lane =>
    match (s.thread? team gang lane).map Thread.blocked with
    | some (.waitf _ _ pa ..) => .quiet (s.observeNow team gang lane pa, .done)
    | _ => .quiet (s, .done)
  | .deliver op =>
    match s.op? op with
    | some o =>
      match o.kind with
      | .claim _ d h (some (code, v)) => .quiet (s.deliverClaim o d h code v, .done)
      | _ => .quiet (s, .done)
    | none => .quiet (s, .done)

/-! ## Around a grant -/

/-- The gangs that are parked. -/
def State.parkedGangs (s : State) (launch : Nat) : List (Nat × Nat) :=
  (s.detTeams launch).flatMap fun t =>
    ((t.gangs.mapIdx fun i g => (i, g)).filter fun x => s.parked t.uid x.1 x.2).map fun x => (t.uid, x.1)

/-- Parked gangs advance by 1,024. -/
def State.advanceParked (s : State) (gs : List (Nat × Nat)) : State :=
  gs.foldl (fun s x => s.modGang x.1 x.2 fun g => { g with clock := g.clock + 1024 }) s

/-- Whether a team performs its grants now: one that drains only finishes a word whose grants have begun (R50). -/
def State.granting (s : State) (team gang : Nat) (p : Pending) : Bool :=
  match s.team? team with
  | none => false
  | some t =>
    t.state == .running || (t.state == .draining &&
      match p with
      | .word path => ((s.gang? team gang).bind fun g => (g.path? path).map fun q => !q.held).getD false
      | _ => false)

/-- Whether a team is of a launch. -/
def State.ofLaunch (s : State) (launch team : Nat) : Bool := ((s.team? team).map Team.launch) == some launch

/-- Whether a request serves a granted operation of a launch. -/
def State.servesGrant (s : State) (launch : Nat) (r : Remote) : Bool :=
  (match (r.op.bind s.op?).map fun o => (o.team, o.kind) with
   | some (t, OpKind.atomic _) => s.ofLaunch launch t
   | _ => false)
  || (r.watcher.map fun w => s.ofLaunch launch w.1).getD false
  || (match r.store.bind fun c => (s.core c.1).stores.find? fun x => x.uid == c.2 with
      | some x => x.kind.reduces && s.ofLaunch launch x.team
      | none => false)

/-- Whether a granted operation of a launch has yet to be performed at its target: the grants form one sequence (R93). -/
def State.grantOpen (s : State) (launch : Nat) : Bool :=
  s.remotes.any (s.servesGrant launch) || s.teams.any fun t => t.launch == launch && t.gangs.any Gang.txSent

/-- The contender with the least key, if it has an operation to perform. -/
def State.nextGrant (s : State) (launch : Nat) : Option (Nat × Nat × Pending) :=
  if s.grantOpen launch then none
  else
  match leastBy Contender.lt (s.unparked launch ++ s.unadmitted launch) with
  | some { team := some t, gang, pending := some p, .. } => if s.granting t gang p then some (t, gang, p) else none
  | _ => none

/-- DET_GRANT. -/
def execDetGrant (launch : Nat) (st : State) : Host.Outcome State Fault Refusal :=
  if !st.detLaunch launch then .fault .notDue
  else
    match st.nextGrant launch with
    | none => .fault .notDue
    | some (t, g, p) =>
      let parked := (st.parkedGangs launch).filter fun x => x != (t, g)
      let q := st.grantPending t g p
      let s := q.state.advanceParked parked
      .next (if q.wrote then s.wakeWaits launch else s)

/-! ## DEADLOCK (R308) -/

/-- Whether an unparked gang stands at synchronising words alone, its grant waiting for tasks not yet admitted and for
no admitted gang. -/
def State.waitsForTasks (s : State) (launch : Nat) (c : Contender) : Bool :=
  let free := s.unparked launch
  match c.team.bind fun t => s.gang? t c.gang with
  | none => false
  | some g =>
    (match c.pending with
     | some (.word _) => true
     | _ => false)
    && (g.paths.all fun p => !p.grants.isEmpty)
    && ((g.threads.mapIdx fun l t => (l, t)).all fun x => x.2.exited || g.inFlight x.1 || s.waitsOnGrant x.2.blocked)
    && (free.all fun d => d == c || !d.lt c) && (s.unadmitted launch).any fun d => d.lt c

/-- The state as it would be if every team of another launch had freed what it holds. -/
def State.othersGone (s : State) (launch : Nat) : State :=
  { s with teams := s.teams.filter fun t => t.launch == launch }

/-- Whether no other party can free what a waiting task lacks: it would find no place, its core's units, slots, ids and
caps and its context's arena counted (R43), though every other launch's team were gone; or it waits behind a task of
lower ordinal for the same core (R46), which is then itself tested (log 18). -/
def State.stuckTask (s : State) (l : Launch) (k : Task) : Bool :=
  ((s.othersGone l.uid).placeTask k).isNone || (k.avoid.isEmpty && s.admittedBefore l k)

/-- Whether a DET launch is deadlocked. A team of it that is on its way out, killed or exiting, still holds what waiting tasks
may lack, and frees it without a grant: the launch is not deadlocked while there is one (DEDUCED, log 18). -/
def State.deadlocked (s : State) (l : Launch) : Bool :=
  let teams := s.detTeams l.uid
  l.det && teams.any (fun t => t.gangs.any Gang.alive)
    && (teams.all fun t => t.state == .running || t.state == .saved)
    && (s.teams.all fun t => t.launch != l.uid || (t.kill.isNone && t.state != .exiting)) && !s.grantOpen l.uid
    && ((s.unparked l.uid).all fun c => s.waitsForTasks l.uid c)
    && ((s.tasks.filter fun k => k.launch == l.uid && k.state == .waiting).all fun k => s.stuckTask l k)

/-- The launch fails with DEADLOCK: one record, and every team killed (R308). -/
def State.failDeadlock (s : State) (l : Launch) : State :=
  let s := s.writeRecord { McRecord.blank 2 3 Cause.deadlock with launchId := l.record, ctx := l.ctx }
  let s := s.modLaunch l.uid fun x => x.failFinally Cause.deadlock
  let s := if l.traced then s.failTrace l.ctx Cause.deadlock 0#64 true else s
  (s.detTeams l.uid).foldl (fun s t => s.killTeam t.uid silentKill) s

end Sys2Proof.Machine
end

