-- ==== Sys2Proof/Machine/Matrix.lean ====
section
/-! DEFINITION. The matrix instructions: majors 0x62 to 0x65 (R229 to R242), the K-step of R78, and the completions of
MMA and ACCRD. -/

namespace Sys2Proof.Machine

/-! ## Gang-uniform words (R229) -/

/-- Whether a matrix word stands where R229 asks: gang 0, all 32 lanes in the path and active, not in serial mode. -/
def Issue.uniform (i : Issue) : Bool :=
  i.cursor.gang == 0 && i.path.lanes == BitVec.allOnes 32 && i.active.length == 32 && !i.gang.serial

/-- The cause that a matrix word raises in each active thread, if its checks fail in any: a thread's own, or that of
the lowest lane that has one (R314). -/
def pathTraps (i : Issue) (check : Lane → Option Trap) : List (Nat × Trap) :=
  match i.active.findSome? fun l => check (i.lane l) with
  | none => []
  | some t => i.active.map fun l => (l, (check (i.lane l)).getD t)

/-- A matrix word: guarded off in every lane it does nothing; where it does not stand as R229 asks, every thread of
its path raises CONVERGE; otherwise it is performed, or its checks raise their cause in every active thread. -/
def matrixWord (st : State) (legal : Bool) (check : Issue → Lane → Option Trap) (act : Issue → State → State) :
    Host.Outcome State Fault Refusal :=
  match st.issue with
  | none => .fault .noIssuingPath
  | some i =>
    if i.active.isEmpty then .next ((st.beginWord i).retireWord i)
    else if !legal then .next (((st.beginWord i).raiseAll i (i.active.map fun l => (l, illegalTrap i.word))).retireWord i)
    else if !i.uniform then
      .next (((st.beginWord i).raiseAll i ((lanesOf i.path.lanes).map fun l =>
        (l, { cause := Cause.converge, info := i.path.lanes.setWidth 64 }))).retireWord i)
    else
      match pathTraps i (check i) with
      | [] => .next ((act i (st.beginWord i)).retireWord i)
      | ts => .next (((st.beginWord i).raiseAll i ts).retireWord i)

/-! ## Accumulator tiles (R230) -/

/-- The slot format of an accumulator type (Table 10.1). -/
def accFormat (ty : Nat) : Nat := if ty == 0 then 1 else if ty == 1 then 0 else 8

/-- Bytes of an element of a type, and of the tiles it takes. -/
def accElem (ty : Nat) : Nat := if ty == 1 then 8 else 4

def accBytes (ty : Nat) : Nat := if ty == 1 then 2048 else 1024

/-- Where element (r, c) lies. -/
def accOffset (tile ty r c : Nat) : Nat := 1024 * tile + accElem ty * (16 * r + c)

/-- Whether a tile does not suit a type. -/
def tileMismatch (t : Team) (tile ty : Nat) : Bool :=
  ty == 1 && (tile % 2 == 1 || decide (tile + 1 ≥ t.accTiles))

/-- The accumulator storage of a team, its own or the follower's. -/
def Team.tiles (t : Team) (follower : Bool) : Memory := if follower then t.follower else t.acc

def Team.setTiles (t : Team) (follower : Bool) (m : Memory) : Team :=
  if follower then { t with follower := m } else { t with acc := m }

/-! ## Words on tiles that operations in flight use (R139, R240) -/

/-- The bytes of its tiles that an operation in flight uses, if it uses bytes that others do: own or follower's, where,
and how many. -/
def OpKind.usesTiles (k : OpKind) (follower : Bool) (base n : Nat) : Bool :=
  match k with
  | .mma r => (!follower || r.paired) && overlaps (1024 * r.tile) (accBytes r.accType) base n
  | .accrd r => r.follower == follower && overlaps (1024 * r.tile) (accBytes r.accType) base n
  | _ => false

/-- What a tile and the follower's hold. -/
def tileBytes (t : Team) (tile n : Nat) : List Byte × List Byte :=
  (t.acc.readBytes (1024 * tile) n, t.follower.readBytes (1024 * tile) n)

/-- An operation in flight notes what another word is about to write to its tiles. -/
def OpKind.note (k : OpKind) (t : Team) (x : TileNote) : OpKind :=
  match k with
  | .mma r => .mma { r with before := r.before ++ [x], base := r.base.or (some (tileBytes t r.tile (accBytes r.accType))) }
  | .accrd r =>
    .accrd { r with before := r.before ++ [(t.tiles r.follower).readBytes (1024 * r.tile) (accBytes r.accType)] }
  | k => k

/-- The repetitions of one REP'd MMA name its first as their chain. -/
def OpKind.chain? (k : OpKind) : Option Nat :=
  match k with
  | .mma r => some r.chain
  | _ => none

/-- A word is about to write accumulator bytes: the team's operations in flight that use them note it, but for those of
the writer's own chain; the word that issues now comes after them all, an MMA that completes after those alone that issued
before it. -/
def State.noteWrite (s : State) (t : Team) (writer : Option (Nat × Nat)) (follower : Bool) (base : Nat) (data : List Byte) :
    State :=
  { s with ops := s.ops.map fun o =>
      if o.team == t.uid && o.kind.usesTiles follower base data.length
          && (writer.isNone || o.kind.chain? != writer.map Prod.snd) then
        { o with kind := o.kind.note t { follower, base, data, earlier := writer.any fun w => decide (w.1 < o.uid) } }
      else o }

/-- The chain of the MMA that issues: a later repetition is of that of the repetition before it, while that is in
flight. -/
def State.chainOf (s : State) (i : Issue) : Nat :=
  match i.path.rep with
  | some r =>
    if r.done == 0 then s.nextUid
    else
      ((s.ops.filter fun o => o.team == i.cursor.team && o.pc == i.path.prefixAddr).getLast?.bind fun o => o.kind.chain?).getD
        s.nextUid
  | none => s.nextUid

/-- A pending operation of a matrix word: it belongs to no lane. -/
def State.addMatrixOp (s : State) (i : Issue) (k : OpKind) : State :=
  let o : Op :=
    { uid := s.nextUid, team := i.cursor.team, gang := i.cursor.gang, lane := 32, core := i.team.core,
      pc := i.path.prefixAddr, flag := i.path.flag, live := true, seq := 0, after := 0, batch := s.tick, queued := false, kind := k }
  (({ s with ops := s.ops ++ [o] } : State).bump).modGang i.cursor.team i.cursor.gang fun g => g.issueFlag i.path

/-! ## MMA: operands (R231 to R234, R237, R238) -/

/-- A control word's fields (Table 10.5). -/
def cwMap (cw : W64) : Nat := field cw.toNat 32 24
def cwType (cw : W64) : Nat := field cw.toNat 30 2
def cwSlotB (cw : W64) : Nat := field cw.toNat 27 3
def cwSlotA (cw : W64) : Nat := field cw.toNat 24 3
def cwAddr (cw : W64) : Nat := field cw.toNat 0 20

def slotFormat (slot : W64) : Nat := field slot.toNat 0 4
def slotScaleMode (slot : W64) : Nat := field slot.toNat 4 2
def slotRounding (slot : W64) : Rnd := rndOf (BitVec.ofNat 2 (field slot.toNat 6 2))
def slotSaturate (slot : W64) : Bool := slot.getLsbD 8
def slotScale (slot : W64) : Byte := BitVec.ofNat 8 (field slot.toNat 12 8)

/-- 24 bytes of a row of A in one thread. -/
def aPart (i : Issue) (a : BitVec 7) (lane base : Nat) : List Byte :=
  (List.range 3).flatMap fun q => bytesOfNat 8 ((i.lane lane).read (runField a (base + q))).toNat

/-- The rows of A in the registers of gang 0. -/
def aRows (i : Issue) (a : BitVec 7) (paired : Bool) : List (List Byte) :=
  (if paired then [0, 3] else [0]).flatMap fun base =>
    (List.range 16).map fun r => aPart i a (2 * r) base ++ aPart i a (2 * r + 1) base

/-- The row scales in the extra register of the run (R232). -/
def aRegScales (i : Issue) (a : BitVec 7) (paired : Bool) : List Byte :=
  (if paired then [0, 8] else [0]).flatMap fun lo =>
    (List.range 16).map fun r =>
      BitVec.ofNat 8 (field ((i.lane (2 * r)).read (runField a (if paired then 6 else 3))).toNat lo 8)

/-- The scale bytes of n rows or columns: none counts as a factor of 1 (R78). -/
def scaleBytes (slot : W64) (n : Nat) (own : List Byte) : List Byte :=
  match slotScaleMode slot with
  | 1 => own
  | 2 => List.replicate n (slotScale slot)
  | _ => List.replicate n 127#8

/-- AOperand of R237: the latch's new state with the rows and register scales. -/
def aOperand (s : State) (i : Issue) (a : BitVec 7) (paired reuse : Bool) (slotA : W64) : Option Latch × Latch :=
  let n := mmaRun paired slotA
  let held := i.gang.activeSlot.bind fun k => ((s.core i.team.core).latches.getD k none).filter fun l => l.run == n
  let v : Latch :=
    held.getD { run := n, rows := aRows i a paired, scales := if slotScaleMode slotA == 1 then aRegScales i a paired else [] }
  (if reuse then some v else none, v)

/-- The columns of B in scratch, and their scales. -/
def bCols (i : Issue) (addr : Nat) : List (List Byte) :=
  (List.range 16).map fun j => (List.range 48).map fun o => i.team.scratchByte (addr + 48 * j + o)

def bScales (i : Issue) (addr : Nat) : List Byte :=
  (List.range 16).map fun j => i.team.scratchByte (addr + 768 + j)

/-- Blocks across a row (Table 10.8). -/
def blocksAcross (bytes : Nat) : Nat := if bytes == 1 then 6 else 3

/-- Whether the block of row r and byte o is marked. -/
def marked (map bytes r o : Nat) : Bool :=
  map.testBit ((if r ≥ 16 then 12 else 0) + blocksAcross bytes * (r % 16 / 8) + o / (8 * bytes))

/-- The rows with their marked blocks taken as +0 (R238). -/
def sparseRows (map bytes : Nat) (rows : List (List Byte)) : List (List Byte) :=
  rows.mapIdx fun r row => row.mapIdx fun o b => if marked map bytes r o then 0#8 else b

/-! ## CheckMma (R236) -/

/-- The accumulator type that the operand formats fix (R78). -/
def typeOfFormat (code : Nat) : Nat := if slotInteger code then 2 else if code == 0 then 1 else 0

/-- The bits of sparse_map that Table 10.8 permits. -/
def sparseLegal (bytes : Nat) (paired : Bool) (map : Nat) : Bool :=
  let n := 2 * blocksAcross bytes
  bytes ≤ 2 && (List.range 24).all fun b => !map.testBit b || b < n || (paired && 12 ≤ b && b < 12 + n)

/-- Items 3 and 4 of R236, for the control word cw. -/
def cwTrap (i : Issue) (fn : Nat) (paired sparse : Bool) (tile : Nat) (cw : W64) : Option Trap :=
  let w := i.word
  let lo := field cw.toNat 0 32
  let hi := field cw.toNat 32 32
  let fa := slotFormat (i.launch.slot (cwSlotA cw))
  let fb := slotFormat (i.launch.slot (cwSlotB cw))
  let bytes := slotWidth fa / 8
  if paired && !i.launch.paired then some (illopnd w fn)
  else if field cw.toNat 56 8 != 0 then some (illopnd w hi)
  else if field cw.toNat 20 4 != 0 || cwType cw == 3 then some (illopnd w lo)
  else if tile ≥ i.team.accTiles then some (illopnd w tile)
  else if tileMismatch i.team tile (cwType cw) || cwType cw != typeOfFormat fa || slotWidth fa != slotWidth fb
      || slotInteger fa != slotInteger fb then some (illopnd w lo)
  else if (!sparse && cwMap cw != 0) || (sparse && !sparseLegal bytes paired (cwMap cw)) then some (illopnd w hi)
  else none

/-- Items 6 and 7 of R236. -/
def bTrap (i : Issue) (cw : W64) : Option Trap :=
  let n := if slotScaleMode (i.launch.slot (cwSlotB cw)) == 1 then 784 else 768
  if cwAddr cw % 64 != 0 then some { cause := Cause.align, info := BitVec.ofNat 64 (cwAddr cw) }
  else if cwAddr cw + n > i.team.scratchBytes then some { cause := Cause.addr, info := BitVec.ofNat 64 (cwAddr cw) }
  else none

/-- CheckMma of R236 after item 1, as one lane meets it: the control word is lane 0's. -/
def mmaCheck (fn : Nat) (paired sparse : Bool) (t a b : BitVec 7) (i : Issue) (l : Lane) : Option Trap :=
  let cw := (i.lane 0).read b
  if a.toNat ≥ 113 then some (illopnd i.word a.toNat)
  else
    (((((i.lane 0).fieldTrap i.word [.src b 1]).or (cwTrap i fn paired sparse t.toNat cw)).or
      (l.fieldTrap i.word [.src a (mmaRun paired (i.launch.slot (cwSlotA cw)))])).or (bTrap i cw))

/-! ## MMA: issue (R235) -/

/-- MMA. -/
def execMma (o p s u : BitVec 1) (t a b : BitVec 7) (st : State) : Host.Outcome State Fault Refusal :=
  let paired := p == 1#1
  let fn := 8 * o.toNat + 4 * p.toNat + 2 * s.toNat + u.toNat
  matrixWord st true (mmaCheck fn paired (s == 1#1) t a b) fun i x =>
    let cw := (i.lane 0).read b
    let slotA := i.launch.slot (cwSlotA cw)
    let slotB := i.launch.slot (cwSlotB cw)
    let q := aOperand st i a paired (u == 1#1) slotA
    let bytes := slotWidth (slotFormat slotA) / 8
    let r : MmaReq :=
      { tile := t.toNat, accType := cwType cw, aFormat := slotFormat slotA, bFormat := slotFormat slotB
        aScales := scaleBytes slotA (if paired then 32 else 16) q.2.scales
        bScales := scaleBytes slotB 16 (if slotScaleMode slotB == 1 then bScales i (cwAddr cw) else [])
        aRows := if s == 1#1 then sparseRows (cwMap cw) bytes q.2.rows else q.2.rows
        bCols := bCols i (cwAddr cw), paired, overwrite := o == 1#1
        chain := x.chainOf i, before := [], base := none }
    let x := match i.gang.activeSlot with
      | some k => x.modCore i.team.core fun c => { c with latches := c.latches.set k q.1 }
      | none => x
    x.addMatrixOp i (.mma r)

/-! ## MatrixKStep (R78) -/

/-- An operand element times its scale. -/
def Fp.times (x : Fp) (scale : Byte) : Fp :=
  match x, e8Factor scale.toNat with
  | .nan s, _ => .nan s
  | _, none => .nan false
  | .fin n m e, some k => .fin n m (e + k)
  | .inf n, some _ => .inf n

/-- The elements of a row or column, of `bytes` bytes each. -/
def elemsOf (bytes : Nat) (row : List Byte) : List Nat :=
  (List.range (48 / bytes)).map fun k => natOfBytes ((row.drop (bytes * k)).take bytes)

/-- A row of A or column of B as numbers. -/
def decodeRow (code : Nat) (scale : Byte) (row : List Byte) : List Fp :=
  (elemsOf (slotWidth code / 8) row).map fun v => (slotDecode code v).times scale

/-- What the products of a K-step come to: the exact finite sum, whether one is NaN, whether one is invalid or has a
signalling operand, and the signs of the infinite ones. -/
structure Products where
  sum : Fp
  nan : Bool
  nv : Bool
  pos : Bool
  neg : Bool
  deriving DecidableEq, Repr

def Products.zero : Products := { sum := .fin false 0 0, nan := false, nv := false, pos := false, neg := false }

/-- Add the product x × y. -/
def Products.add (p : Products) (x y : Fp) : Products :=
  if x.isNan || y.isNan then { p with nan := true, nv := p.nv || x.isSignalling || y.isSignalling }
  else
    match mulExact x y with
    | none => { p with nan := true, nv := true }
    | some (.inf n) => if n then { p with neg := true } else { p with pos := true }
    | some z => let (v, q) := sumExact p.sum z; { p with sum := Fp.ofInt v q }

/-- One float element of a K-step. -/
def kstepFloat (f : FloatFmt) (old : Nat) (xs ys : List Fp) : FpResult :=
  let acc := f.decode old
  let p := (xs.zip ys).foldl (fun p z => p.add z.1 z.2) Products.zero
  let pos := p.pos || (acc.isInf && !acc.neg)
  let neg := p.neg || (acc.isInf && acc.neg)
  if p.nan || acc.isNan || (pos && neg) then f.nan (p.nv || acc.isSignalling || (pos && neg))
  else if pos || neg then f.ofFp (.inf neg) .rne false
  else
    let (v, q) := sumExact acc p.sum
    f.ofFp (Fp.ofInt v q) .rne false

/-- One INT32 element of a K-step. -/
def kstepInt (old : Nat) (xs ys : List Int) : FpResult :=
  let r := satS (signExtend old 32 + ((xs.zip ys).map fun z => z.1 * z.2).sum) 32
  { bits := wrap r.1 32, flags := 0#5, sat := r.2 }

/-- One element (i, j) of an MMA, of an old value; row i counts the follower's rows from 16. -/
def MmaReq.element (r : MmaReq) (i j old : Nat) : FpResult :=
  let old := if r.overwrite then 0 else old
  let row := r.aRows.getD i []
  let col := r.bCols.getD j []
  if slotInteger r.aFormat then
    kstepInt old ((elemsOf (slotWidth r.aFormat / 8) row).map (slotInt r.aFormat))
      ((elemsOf (slotWidth r.bFormat / 8) col).map (slotInt r.bFormat))
  else
    kstepFloat (if r.accType == 1 then f64 else f32) old (decodeRow r.aFormat (r.aScales.getD i 127#8) row)
      (decodeRow r.bFormat (r.bScales.getD j 127#8) col)

/-- What a note holds of an element at an offset. -/
def TileNote.value? (x : TileNote) (follower : Bool) (off e : Nat) : Option Nat :=
  if x.follower == follower && decide (x.base ≤ off) && decide (off + e ≤ x.base + x.data.length) then
    some (natOfBytes ((x.data.drop (off - x.base)).take e))
  else none

/-- The element's result (R139, R240, Table 10.10). It reads what the element held as it issued, or as the repetition
before it left it, or what another word that had issued before it has written in its flight. Its own write remains, or that
of a word that has written the element in its flight. -/
def MmaReq.settled (r : MmaReq) (tick : Nat) (follower : Bool) (i j now : Nat) : Nat × FpResult :=
  let e := accElem r.accType
  let row := if follower then 16 + i else i
  let notes := r.before.filterMap fun x => (x.value? follower (accOffset r.tile r.accType i j) e).map fun v => (x.earlier, v)
  let held := match r.base with
    | some b => natOfBytes ((((if follower then b.2 else b.1)).drop (e * (16 * i + j))).take e)
    | none => now
  let reads := if notes.isEmpty then [now] else held :: (notes.filter Prod.fst).map Prod.snd
  let pick := Config.elementChoice tick (16 * row + j)
  let v := r.element row j (reads.getD (pick % reads.length) now)
  let left := v.bits :: notes.map Prod.snd
  (left.getD (pick / reads.length % left.length) v.bits, v)

/-- One K-step on a tile: the new storage, and the results. -/
def MmaReq.kstep (r : MmaReq) (tick : Nat) (follower : Bool) (m : Memory) : Memory × List FpResult :=
  let e := accElem r.accType
  let rs := (List.range 16).flatMap fun i => (List.range 16).map fun j =>
    r.settled tick follower i j (m.readNat (accOffset r.tile r.accType i j) e)
  (m.writeBytes (1024 * r.tile) (rs.flatMap fun x => bytesOfNat e x.1), rs.map Prod.snd)

/-! ## MMA: completion (R239, R240, R340) -/

/-- The arrays that an operation uses: its core's, and the follower's in a paired MMA. -/
def Op.arrays (o : Op) : List Nat :=
  match o.kind with
  | .mma r => if r.paired then [o.core, o.core + 1] else [o.core]
  | _ => []

/-- Whether an MMA is the oldest in every array that it uses. -/
def firstInArrays (o : Op) : List Op → Bool
  | [] => false
  | x :: xs => if x.uid == o.uid then true else !(x.arrays.any fun a => o.arrays.contains a) && firstInArrays o xs

/-- A pending operation is over: it leaves, and the flags that it held clear. -/
def State.completeOp (s : State) (o : Op) : State := (s.dropOp o.uid).settleFlags o.team o.gang

/-- A repetition of an MMA has completed: those after it read what it has left. -/
def OpKind.follow (k : OpKind) (t : Team) (chain : Nat) : OpKind :=
  match k with
  | .mma r =>
    if r.chain == chain then
      .mma { r with
        before := r.before.map fun x => { x with earlier := false }
        base := r.base.map fun _ => tileBytes t r.tile (accBytes r.accType) }
    else k
  | k => k

/-- The tiles and flags of an MMA whose check has passed. -/
def State.applyMma (s : State) (o : Op) (r : MmaReq) : State :=
  match s.team? o.team with
  | none => s
  | some t =>
    let lead := r.kstep s.tick false t.acc
    let foll := if r.paired then r.kstep s.tick true t.follower else (t.follower, [])
    let rs := lead.2 ++ foll.2
    let own := fun (rs : List FpResult) => rs.flatMap fun x => bytesOfNat (accElem r.accType) x.bits
    let s := s.noteWrite t (some (o.uid, r.chain)) false (1024 * r.tile) (own lead.2)
    let s := if r.paired then s.noteWrite t (some (o.uid, r.chain)) true (1024 * r.tile) (own foll.2) else s
    let t' : Team := { t with acc := lead.1, follower := foll.1 }
    let s : State :=
      { s with ops := s.ops.map fun (p : Op) => if p.team == o.team then { p with kind := p.kind.follow t' r.chain } else p }
    s.modTeam o.team fun t =>
      ({ t with acc := lead.1, follower := foll.1 } : Team).modGang 0 fun g =>
        { g with threads := g.threads.map fun th => (th.orFp (flagsOf rs)).orSat (satOf rs) }

/-- The kill that a failed check leads to (R340). -/
def State.matrixKill (s : State) (o : Op) (cause : Nat) (info : W64) : State :=
  match s.gang? o.team o.gang with
  | none => s
  | some g => s.killTeam o.team (killOf g cause 0 info o.pc (BitVec.allOnes 32))

/-- MMA_COMPLETE. -/
def execMmaComplete (op : Nat) (check : ArrayCheck) (st : State) : Host.Outcome State Fault Refusal :=
  match st.op? op with
  | none => .fault .notDue
  | some o =>
    match o.kind with
    | .mma r =>
      if !firstInArrays o st.ops || ([ArrayCheck.followerFailed, .followerRepeated, .bothRepeated].contains check && !r.paired) then .fault .notDue
      else
        let s := st.completeOp o
        if !o.live then .next s
        else
          match check with
          | .passed => .next (s.applyMma o r)
          | .repeatedPassed => .next ((s.applyMma o r).modCore o.core fun c => c.countError .matrix)
          | .followerRepeated => .next ((s.applyMma o r).modCore (o.core + 1) fun c => c.countError .matrix)
          | .bothRepeated =>
            .next (((s.applyMma o r).modCore o.core fun c => c.countError .matrix).modCore (o.core + 1) fun c =>
              c.countError .matrix)
          | .leaderFailed => .next (s.matrixKill o Cause.matrixcheck (BitVec.ofNat 64 r.tile))
          | .followerFailed => .next (s.matrixKill o Cause.pair (BitVec.ofNat 64 (o.core + 1)))
    | _ => .fault .notDue

/-! ## ACCRD, ACCWR and ACCZ (R241, R242) -/

/-- A conversion between a tile's type and a slot's format (R76, R241). -/
def convertElem (src dst : Nat) (bits : Nat) (slot : W64) : FpResult :=
  if slotInteger src && slotInteger dst then slotNarrow dst (slotInt src bits) (slotSaturate slot)
  else slotRound dst (slotDecode src bits) (slotRounding slot) (slotSaturate slot)

/-- The rows of Table 19.6 for ACCRD and ACCWR. The registers that ACCWR reads are a run also where there is one, and so
do not start at a special operand other than zero (R133, R241). -/
def tileCheck (f : BitVec 1) (fn tile ty : Nat) (reg : BitVec 7) (slot : W64) (i : Issue) (l : Lane) : Option Trap :=
  if tile ≥ i.team.accTiles || tileMismatch i.team tile ty then some (illopnd i.word tile)
  else if f == 1#1 && !i.launch.paired then some (illopnd i.word fn)
  else l.fieldTrap i.word [.dst reg (tileRun slot)]

/-- ACCRD: each lane's elements are converted as it completes. -/
def execAccrd (f : BitVec 1) (k : BitVec 3) (d t : BitVec 7) (y : BitVec 2) (st : State) :
    Host.Outcome State Fault Refusal :=
  let fol := f == 1#1
  matrixWord st (y != 3#2)
    (fun i => tileCheck f (8 * f.toNat + k.toNat) t.toNat y.toNat d (i.launch.slot k.toNat) i)
    fun i x =>
      let slot := i.launch.slot k.toNat
      let r : AccReq :=
        { tile := t.toNat, accType := y.toNat, follower := fol, slot
          dests := (List.range 32).map fun l => (l, (List.range (tileRun slot)).map fun q => (i.lane l).dest (runField d q))
          before := [], given := [] }
      x.addMatrixOp i (.accrd r)

/-- Element (row, c) as an ACCRD delivers it. -/
def AccReq.element (r : AccReq) (tick : Nat) (m : Memory) (row c : Nat) : FpResult :=
  let e := accElem r.accType
  let now := m.readNat (accOffset r.tile r.accType row c) e
  let vs := now :: r.before.map fun bs => natOfBytes ((bs.drop (e * (16 * row + c))).take e)
  let v := vs.getD (Config.elementChoice tick (16 * row + c) % vs.length) now
  convertElem (accFormat r.accType) (slotFormat r.slot) v r.slot

/-- A lane takes the elements of one register of its run, with their flags (R241). -/
def AccReq.give (r : AccReq) (tick : Nat) (m : Memory) (l q : Nat) (d : Dest) (t : Thread) : Thread :=
  let w := slotWidth (slotFormat r.slot)
  let vs := (List.range (64 / w)).map fun c => r.element tick m (l / 2) (8 * (l % 2) + 64 / w * q + c)
  ((t.write d (pack w (vs.map FpResult.bits))).orFp (flagsOf vs)).orSat (satOf vs)

/-- A lane takes those of its eight elements that have not come before (R139, R241). -/
def AccReq.deliver (r : AccReq) (tick : Nat) (m : Memory) (l : Nat) (ds : List Dest) (t : Thread) : Thread :=
  (ds.zipIdx).foldl (fun t d => if r.given.contains (l, d.2) then t else r.give tick m l d.2 d.1 t) t

/-- ACCRD_COMPLETE. -/
def execAccrdComplete (op : Nat) (st : State) : Host.Outcome State Fault Refusal :=
  match st.op? op with
  | none => .fault .notDue
  | some o =>
    match o.kind, st.team? o.team with
    | .accrd r, some t =>
      let s := if o.live then
          st.modGang o.team o.gang fun g =>
            r.dests.foldl (fun g d => g.modThread d.1 (r.deliver st.tick (t.tiles r.follower) d.1 d.2)) g
        else st
      .next (s.completeOp o)
    | _, _ => .fault .notDue

/-- The eight elements that a lane's registers give for an ACCWR. -/
def accwrElems (i : Issue) (a : BitVec 7) (ty : Nat) (slot : W64) (l : Nat) : List FpResult :=
  let code := slotFormat slot
  let w := slotWidth code
  (List.range 8).map fun q =>
    convertElem code (accFormat ty) (elem ((i.lane l).read (runField a (q * w / 64))) w (q % (64 / w))) slot

/-- ACCWR. -/
def execAccwr (f : BitVec 1) (k : BitVec 3) (t a : BitVec 7) (y : BitVec 2) (st : State) :
    Host.Outcome State Fault Refusal :=
  let fol := f == 1#1
  matrixWord st (y != 3#2)
    (fun i => tileCheck f (8 * f.toNat + k.toNat) t.toNat y.toNat a (i.launch.slot k.toNat) i)
    fun i x =>
      let slot := i.launch.slot k.toNat
      let vs := fun l => accwrElems i a y.toNat slot l
      let bytes := (List.range 32).flatMap fun l => (vs l).flatMap fun v => bytesOfNat (accElem y.toNat) v.bits
      let x := x.noteWrite i.team none fol (1024 * t.toNat) bytes
      let x := x.modTeam i.cursor.team fun tm => tm.setTiles fol ((tm.tiles fol).writeBytes (1024 * t.toNat) bytes)
      x.modGang i.cursor.team 0 fun g =>
        g.mapLanes (List.range 32) fun l th => (th.orFp (flagsOf (vs l))).orSat (satOf (vs l))

/-- ACCZ: the b field holds n − 1. -/
def execAccz (f : BitVec 1) (t n : BitVec 7) (st : State) : Host.Outcome State Fault Refusal :=
  let fol := f == 1#1
  let count := n.toNat + 1
  matrixWord st true
    (fun i _ =>
      if t.toNat + n.toNat ≥ i.team.accTiles then some (illopnd i.word t.toNat)
      else if fol && !i.launch.paired then some (illopnd i.word f.toNat)
      else none)
    fun i x =>
      (x.noteWrite i.team none fol (1024 * t.toNat) (List.replicate (1024 * count) 0#8)).modTeam i.cursor.team fun tm =>
        tm.setTiles fol ((tm.tiles fol).zero (1024 * t.toNat) (1024 * count))

end Sys2Proof.Machine
end

