-- ==== Sys2Proof/Machine/Power.lean ====
section
/-! DEFINITION. CORE_ERROR_WINDOW and CORE_UNRETIRE_COMMAND: margins and predictive failure (R353, R354). -/

namespace Sys2Proof.Machine

/-! ## Windows (R353) -/

/-- The code of an array in a record of kind 1 (R354). -/
def arrayCode : CoreArray → Nat
  | .pool => 0
  | .l1 => 1
  | .icache => 2
  | .matrix => 3

/-- The last window's count of an array, as far as that window began at nominal voltage. -/
def Core.lastWindow (c : Core) (a : CoreArray) : Nat := (c.arrayCount a).lastWindow

/-- Whether the window under way began at nominal voltage. -/
def Core.nominal (c : Core) (a : CoreArray) : Bool := (c.arrayCount a).nominal

/-- The count of a window that ends: the errors that steps of the model have shown, and those that no step has. -/
def Core.windowCount (c : Core) (a : CoreArray) (unseen : Nat) : Nat := (c.arrayCount a).total + unseen

/-! ## The end of a window -/

/-- Whether this window and the one before declare the core's failure (R354). Counts are taken at nominal voltage where
their window began at it (DESIGN CHOICE, log 52). -/
def Core.failing (c : Core) (a : CoreArray) (count : Nat) : Bool :=
  c.nominal a && decide (arrayThreshold a ≤ count) && decide (arrayThreshold a ≤ c.lastWindow a)

/-- A window of an array ends: the next begins, at the voltage that the margin now leaves. -/
def Core.endWindow (c : Core) (a : CoreArray) (count : Nat) : Core :=
  let c := c.checkMargin a count
  c.setCount
    { array := a, total := 0, nominal := c.marginWithdrawn, lastWindow := if c.nominal a then count else 0 }

/-- Pre-empt teams one after another; one for which the save arena lacks room keeps running (R312). -/
def State.preemptAll (s : State) (us : List Nat) : State :=
  us.foldl (fun s u =>
    match s.team? u with
    | some t => (s.preempt t).getD s
    | none => s) s

/-- The teams that a core's retirement moves: its residents, and the paired teams that have it as their follower. -/
def State.movedTeams (s : State) (core : Nat) : List Nat :=
  (s.residents core ++ (if core % 2 == 0 then [] else
    (s.residents (core - 1)).filter fun t => ((s.launchOf t).map Launch.paired).getD false)).map Team.uid

/-- A core is retired (R354). -/
def State.retireCore (s : State) (core : Nat) (a : CoreArray) : State :=
  let s := s.modCore core fun c => { c with retired := true }
  let s := s.writeRecord { McRecord.blank 1 0 0 with info := BitVec.ofNat 64 (arrayCode a), core }
  s.preemptAll (s.movedTeams core)

/-- CORE_ERROR_WINDOW: its operand counts the corrected errors that no step of the model has shown. -/
def execCoreErrorWindow (core : Nat) (array : CoreArray) (count : Nat) (st : State) : Host.Outcome State Fault Refusal :=
  if !st.island.computeUp || decide (288 ≤ core) then .fault .notDue
  else
    let c := st.core core
    let count := c.windowCount array count
    let s := st.modCore core fun c => c.endWindow array count
    .next (if c.failing array count && !c.retired then s.retireCore core array else s)

/-- CORE_UNRETIRE_COMMAND: by the management port, while it is up. -/
def execCoreUnretireCommand (core : Nat) (st : State) : Host.Outcome State Fault Refusal :=
  if !st.island.managementUp || decide (288 ≤ core) then .fault .notDue
  else .next (st.modCore core fun c => { c with retired := false })

end Sys2Proof.Machine
end

