-- ==== Sys2Proof/Machine/RegBlock.lean ====
section
/-! DEFINITION. RBGIVE and RBTAKE: op 0x6C (R256, R257). -/

namespace Sys2Proof.Machine

/-- Where register i of lane t of slot k is held in scratch (R256). -/
def blockAt (k t i : Nat) : Nat := 2048 * k + 64 * t + 8 * i

/-- A FULL slot. -/
def Team.block? (t : Team) (k : Nat) : Option RegBlock := (t.blocks[k]?).join

/-- Threads that stall at a slot go on when it changes. -/
def Thread.wakeBlock (t : Thread) (slot : Nat) (give : Bool) : Thread :=
  if t.blocked == .regBlock slot give then { t with blocked := .none } else t

/-- A slot changes: FULL for takers, EMPTY for givers. -/
def Team.setBlock (t : Team) (k : Nat) (b : Option RegBlock) : Team :=
  { t with
    blocks := t.blocks.set k b
    gangs := t.gangs.map fun g => { g with threads := g.threads.map fun th => th.wakeBlock k b.isNone } }

/-- The checks of either word: slot, scratch, run and window, and for a take the count of the block. -/
def blockCheck (i : Issue) (k n : Nat) (run : Field) (give : Bool) (l : Lane) : Option Trap :=
  (l.fieldTrap i.word [.idx k 8, .must (i.team.scratchUnits != 0) 0, run]).or
    (if i.gang.inTx l.lane && i.team.meetsLog i.cursor.gang (2048 * k) 2048 then none
    else if give then none
    else
      match i.team.block? k with
      | some b => if b.count == n then none else some (illopnd i.word b.count)
      | none => none)

/-- A register-block word acts once for its path: it stalls, raises one cause in every active thread, dooms, or acts, and
stands behind a release of its threads as a scratch store does (R97, R256).
Threads may differ only in WINDOW, since their windows may: one that raises it leaves the others to act. -/
def blockWord (st : State) (k n : Nat) (run : Field) (give : Bool) (act : Issue → List Nat → State → State) :
    Host.Outcome State Fault Refusal :=
  match st.issue with
  | none => .fault .noIssuingPath
  | some i =>
    let ok := i.active.filter fun l => (blockCheck i k n run give (i.lane l)).isNone
    let dooms := ok.any fun l => i.gang.inTx l && i.team.meetsLog i.cursor.gang (2048 * k) 2048
    if scratchHolds st i ok then .next (st.hold i)
    else if !ok.isEmpty && !dooms && (i.team.block? k).isSome == give then .next ((st.parkPath i (.regBlock k give)).checkConverge i.cursor.team)
    else
      pathWord st (fun i => blockCheck i k n run give) fun i ok s =>
        if ok.isEmpty then s
        else if dooms then s.modGang i.cursor.team i.cursor.gang fun g => g.doom 5
        else act i ok s

/-- RBGIVE. -/
def execRbgive (k a : BitVec 7) (n : BitVec 3) (st : State) : Host.Outcome State Fault Refusal :=
  let c := n.toNat + 1
  blockWord st k.toNat c (.src a c) true fun i ok s =>
    s.modTeam i.cursor.team fun t =>
      ok.foldl (fun t l =>
        (List.range c).foldl (fun t j =>
          t.scratchWrite (blockAt k.toNat l j) (bytesOfNat 8 ((i.lane l).read (runField a j)).toNat)) t)
        (t.setBlock k.toNat (some { lanes := maskOf ok, count := c }))

/-- RBTAKE. -/
def execRbtake (d k : BitVec 7) (n : BitVec 3) (st : State) : Host.Outcome State Fault Refusal :=
  let c := n.toNat + 1
  blockWord st k.toNat c (.dst d c) false fun i ok s =>
    match i.team.block? k.toNat with
    | none => s
    | some b =>
      let s := s.modGang i.cursor.team i.cursor.gang fun g => g.mapLanes ok fun l t =>
        (List.range c).foldl (fun t j =>
          setReg (i.lane l) (runField d j)
            (if b.lanes.getLsbD l then BitVec.ofNat 64 (natOfBytes (i.team.scratchRead (blockAt k.toNat l j) 8)) else 0#64) t) t
      s.modTeam i.cursor.team fun t => t.setBlock k.toNat none

end Sys2Proof.Machine
end

