-- ==== Sys2Proof/Machine/Storage.lean ====
section
/-! DEFINITION. L2_SCRUB and STORAGE_ERROR: the fates of Table 20.1 (R304, R326, R327, R335). -/

namespace Sys2Proof

open Machine in
/-- The arrays that no power controller watches, by the number that counts them. -/
def StorageSite.counter : StorageSite → Nat
  | .hbm sec => 0 * 1024 + (homeSlice (sec * 64)).1 * 64 + (homeSlice (sec * 64)).2
  | .l2Data sec => 1 * 1024 + (homeSlice (sec * 64)).1 * 64 + (homeSlice (sec * 64)).2
  | .l2Tag line => 1 * 1024 + (homeSlice (line * 256)).1 * 64 + (homeSlice (line * 256)).2
  | .syncLine sec => 2 * 1024 + (homeSlice (sec * 64)).1 * 64 + (homeSlice (sec * 64)).2
  | .readerIndex die => 3 * 1024 + die
  | .caddy die _ => 4 * 1024 + die
  | .l1 core _ | .icache core _ | .pool core _ => 5 * 1024 + core

open Machine in
/-- Whether the package has the part that a site names (Table 1.1). -/
def StorageSite.present : StorageSite → Bool
  | .hbm sec | .l2Data sec | .syncLine sec => decide (64 * sec < deviceBytes)
  | .l2Tag line => decide (256 * line < deviceBytes)
  | .readerIndex die | .caddy die _ => decide (die < 4)
  | .l1 core _ | .icache core _ | .pool core _ => decide (core < 288)

end Sys2Proof

namespace Sys2Proof.Machine

/-! ## Counts outside the cores -/

/-- An array outside the cores has counted an error. -/
def State.countArray (s : State) (site : StorageSite) : State :=
  { s with arrayErrors := insertAt s.arrayErrors site.counter (lookupD s.arrayErrors site.counter 0 + 1) }

/-! ## The pool (R304) -/

/-- A kill by an uncorrectable error of a core's pool. -/
def Team.poolKill (t : Team) (cause : Nat) (info : W64) : Kill :=
  { cause, firstCause := 0, info, addr := 0#64, pc := 0#64, lanes := 0#32, kind := 1
    slot := ((t.gangs.head?).map Gang.slot).getD 0, silent := false }

/-- Whether a team holds units of a core's pool: its own, or as the leader of a pair. -/
def State.holdsPool (s : State) (t : Team) (core : Nat) : Bool :=
  t.resident && (t.core == core ||
    (core % 2 == 1 && t.core + 1 == core && ((s.launchOf t).map Launch.paired).getD false))

/-- The teams whose paired MMA runs on the array of an odd core. -/
def State.pairedOver (s : State) (core : Nat) : List Nat :=
  if core % 2 == 0 then []
  else
    ((s.ops.filter fun o =>
      match o.kind with
      | .mma r => r.paired && o.live && o.core + 1 == core
      | _ => false).map Op.team).dedup

/-- An uncorrectable error of a core's pool. -/
def State.poolError (s : State) (core : Nat) (owner : Team) : State :=
  let leaders := s.pairedOver core
  if leaders.isEmpty then s.killTeam owner.uid (owner.poolKill Cause.poison 0#64)
  else
    let s := leaders.foldl (fun s u =>
      match s.team? u with
      | some t => s.killTeam u (t.poolKill Cause.pair (BitVec.ofNat 64 core))
      | none => s) s
    (s.residents core).foldl (fun s t => s.killTeam t.uid (t.poolKill Cause.poison 0#64)) s

/-! ## The caddy (R335) -/

/-- The index of an entry as a read record names it (Table 5.5 kind 1). -/
def Claim.place (e : Claim) : W64 := BitVec.ofNat 64 (2 ^ 63 + caddyHome e.name * 2 ^ 30 + e.index)

/-- A lost entry. -/
def State.loseClaim (s : State) (e : Claim) : State :=
  match e.maker with
  | none => if s.pinned e.name then s.unfulfil e.name else s.dropClaim e.name
  | some m =>
    match s.teams.find? fun t => t.task == m with
    | some t =>
      s.killTeam t.uid
        { cause := Cause.poison, firstCause := 0, info := e.place, addr := e.place, pc := 0#64, lanes := 0#32, kind := 0
          slot := ((t.gangs.head?).map Gang.slot).getD 0, silent := false }
    | none => s.handOver e

/-! ## STORAGE_ERROR -/

/-- Whether a sync engine holds the line that a site of its SRAM names. -/
def State.holdsSite (s : State) : StorageSite → Bool
  | .syncLine sec => s.syncLines.contains (sec / 4)
  | _ => true

/-- A corrected error: the data stands, and the array's count rises. Parity errors of the L1, the instruction cache and
the reader-index cache, which are refilled, count so too. -/
def State.correctedStorage (s : State) : StorageSite → State
  | .l1 core sec => s.modCore core fun c => (c.l1DropSector sec).countError .l1
  | .icache core sec =>
    s.modCore core fun c => Core.countError { c with icache := c.icache.filter fun w => sectorOf w.1 != sec } .icache
  | .pool core _ => s.modCore core fun c => c.countError .pool
  | site => s.countArray site

/-- An uncorrectable error; where nothing is there that could have it, none. -/
def State.lostStorage (s : State) : StorageSite → Option State
  | .hbm sec | .l2Data sec | .syncLine sec => some (s.poison sec)
  | .l2Tag line => some ((List.range 4).foldl (fun s k => s.poison (4 * line + k)) s)
  | .l1 core sec => some (s.correctedStorage (.l1 core sec))
  | .icache core sec => some (s.correctedStorage (.icache core sec))
  | .readerIndex _ => some s
  | .pool _ none => some s
  | .pool core (some u) => (s.team? u).bind fun t => if s.holdsPool t core then some (s.poolError core t) else none
  | .caddy die name =>
    match s.claim? name with
    | some e => if caddyHome name == die then some ((s.loseClaim e).countArray (.caddy die name)) else none
    | none => some (s.countArray (.caddy die name))

/-- STORAGE_ERROR: of a part that the package has, and of a sync engine's line that it holds. -/
def execStorageError (site : StorageSite) (corrected : Bool) (st : State) : Host.Outcome State Fault Refusal :=
  if !site.present || !st.holdsSite site then .fault .notDue
  else if corrected then .next (st.correctedStorage site)
  else
    match st.lostStorage site with
    | some s => .next s
    | none => .fault .notDue

/-! ## L2_SCRUB -/

/-- L2_SCRUB: a sector is read and corrected; an uncorrectable error poisons it. -/
def execL2Scrub (sector : Nat) (result : StorageResult) (st : State) : Host.Outcome State Fault Refusal :=
  if deviceBytes ≤ 64 * sector then .fault .notDue
  else
  match result with
  | .clean => .next st
  | .corrected => .next (st.countArray (.hbm sector))
  | .uncorrectable => .next (st.poison sector)

end Sys2Proof.Machine
end

