-- ==== Sys2Proof/Machine/Dispatch.lean ====
section
/-! DEFINITION. The meaning of each instruction and step: one arm for each row of the opcode table. -/

namespace Sys2Proof.Machine

/-- Perform an instruction, or a step of the device. -/
def exec (i : Instr) (s : State) : Host.Outcome State Fault Refusal :=
  match i with
  | .clauseHeader w a b l y => Sys2Proof.Machine.execClauseHeader w a b l y s
  | .bra o => Sys2Proof.Machine.execBra o s
  | .brp p o => Sys2Proof.Machine.execBrp p o s
  | .brnp p o => Sys2Proof.Machine.execBrnp p o s
  | .brz a o => Sys2Proof.Machine.execBrz a o s
  | .brnz a o => Sys2Proof.Machine.execBrnz a o s
  | .call o => Sys2Proof.Machine.execCall o s
  | .calli a => Sys2Proof.Machine.execCalli a s
  | .ret => Sys2Proof.Machine.execRet s
  | .jmpi a => Sys2Proof.Machine.execJmpi a s
  | .exit => Sys2Proof.Machine.execExit s
  | .rep c d a b => Sys2Proof.Machine.execRep c d a b s
  | .grd n p => Sys2Proof.Machine.execGrd n p s
  | .wbase imm => Sys2Proof.Machine.execWbase imm s
  | .join m => Sys2Proof.Machine.execJoin m s
  | .leave m => Sys2Proof.Machine.execLeave m s
  | .waitm m => Sys2Proof.Machine.execWaitm m s
  | .mset m b => Sys2Proof.Machine.execMset m b s
  | .mget d m => Sys2Proof.Machine.execMget d m s
  | .anyVote p a => Sys2Proof.Machine.execAnyVote p a s
  | .allVote p a => Sys2Proof.Machine.execAllVote p a s
  | .ballot d a => Sys2Proof.Machine.execBallot d a s
  | .elect p => Sys2Proof.Machine.execElect p s
  | .matchLanes d a => Sys2Proof.Machine.execMatchLanes d a s
  | .active d => Sys2Proof.Machine.execActive d s
  | .rewarp a n => Sys2Proof.Machine.execRewarp a n s
  | .yield => Sys2Proof.Machine.execYield s
  | .brk c => Sys2Proof.Machine.execBrk c s
  | .trap a => Sys2Proof.Machine.execTrap a s
  | .eret => Sys2Proof.Machine.execEret s
  | .srd d imm j => Sys2Proof.Machine.execSrd d imm j s
  | .swr sf imm j => Sys2Proof.Machine.execSwr sf imm j s
  | .icinv => Sys2Proof.Machine.execIcinv s
  | .cntc d => Sys2Proof.Machine.execCntc d s
  | .cnti d => Sys2Proof.Machine.execCnti d s
  | .add u sf e d a b => Sys2Proof.Machine.execAdd u sf e d a b s
  | .sub u sf e d a b => Sys2Proof.Machine.execSub u sf e d a b s
  | .addi d a imm => Sys2Proof.Machine.execAddi d a imm s
  | .mul u h e d a b => Sys2Proof.Machine.execMul u h e d a b s
  | .mad e d a b => Sys2Proof.Machine.execMad e d a b s
  | .min u e d a b => Sys2Proof.Machine.execMin u e d a b s
  | .max u e d a b => Sys2Proof.Machine.execMax u e d a b s
  | .abs d a e => Sys2Proof.Machine.execAbs d a e s
  | .neg d a e => Sys2Proof.Machine.execNeg d a e s
  | .not d a e => Sys2Proof.Machine.execNot d a e s
  | .popc d a e => Sys2Proof.Machine.execPopc d a e s
  | .clz d a e => Sys2Proof.Machine.execClz d a e s
  | .ctz d a e => Sys2Proof.Machine.execCtz d a e s
  | .brev d a e => Sys2Proof.Machine.execBrev d a e s
  | .bswap d a e => Sys2Proof.Machine.execBswap d a e s
  | .and d a b => Sys2Proof.Machine.execAnd d a b s
  | .or d a b => Sys2Proof.Machine.execOr d a b s
  | .xor d a b => Sys2Proof.Machine.execXor d a b s
  | .andn d a b => Sys2Proof.Machine.execAndn d a b s
  | .orn d a b => Sys2Proof.Machine.execOrn d a b s
  | .xnor d a b => Sys2Proof.Machine.execXnor d a b s
  | .andi d a imm => Sys2Proof.Machine.execAndi d a imm s
  | .ori d a imm => Sys2Proof.Machine.execOri d a imm s
  | .xori d a imm => Sys2Proof.Machine.execXori d a imm s
  | .shl e d a b => Sys2Proof.Machine.execShl e d a b s
  | .shr e d a b => Sys2Proof.Machine.execShr e d a b s
  | .sar e d a b => Sys2Proof.Machine.execSar e d a b s
  | .rol e d a b => Sys2Proof.Machine.execRol e d a b s
  | .shli d a n => Sys2Proof.Machine.execShli d a n s
  | .shri d a n => Sys2Proof.Machine.execShri d a n s
  | .sari d a n => Sys2Proof.Machine.execSari d a n s
  | .roli d a n => Sys2Proof.Machine.execRoli d a n s
  | .bfx sf d a b => Sys2Proof.Machine.execBfx sf d a b s
  | .bfi d a b => Sys2Proof.Machine.execBfi d a b s
  | .cmp w c p a b => Sys2Proof.Machine.execCmp w c p a b s
  | .cmpi c p a imm => Sys2Proof.Machine.execCmpi c p a imm s
  | .sel n p d a b => Sys2Proof.Machine.execSel n p d a b s
  | .mov d a => Sys2Proof.Machine.execMov d a s
  | .pget d => Sys2Proof.Machine.execPget d s
  | .pset a => Sys2Proof.Machine.execPset a s
  | .pand d a b => Sys2Proof.Machine.execPand d a b s
  | .por d a b => Sys2Proof.Machine.execPor d a b s
  | .pxor d a b => Sys2Proof.Machine.execPxor d a b s
  | .pnot d a => Sys2Proof.Machine.execPnot d a s
  | .mvi d imm => Sys2Proof.Machine.execMvi d imm s
  | .mvh1 d imm => Sys2Proof.Machine.execMvh1 d imm s
  | .mvh2 d imm => Sys2Proof.Machine.execMvh2 d imm s
  | .mvh3 d imm => Sys2Proof.Machine.execMvh3 d imm s
  | .lea sf d a b => Sys2Proof.Machine.execLea sf d a b s
  | .pdot2 u d a b => Sys2Proof.Machine.execPdot2 u d a b s
  | .psrr e d a b => Sys2Proof.Machine.execPsrr e d a b s
  | .pnarrow u e d a b => Sys2Proof.Machine.execPnarrow u e d a b s
  | .pwiden x h e d a => Sys2Proof.Machine.execPwiden x h e d a s
  | .fadd r t d a b => Sys2Proof.Machine.execFadd r t d a b s
  | .fsub r t d a b => Sys2Proof.Machine.execFsub r t d a b s
  | .fmul r t d a b => Sys2Proof.Machine.execFmul r t d a b s
  | .ffma r t d a b => Sys2Proof.Machine.execFfma r t d a b s
  | .fmin n t d a b => Sys2Proof.Machine.execFmin n t d a b s
  | .fmax n t d a b => Sys2Proof.Machine.execFmax n t d a b s
  | .fabs t d a => Sys2Proof.Machine.execFabs t d a s
  | .fneg t d a => Sys2Proof.Machine.execFneg t d a s
  | .fcpys t d a b => Sys2Proof.Machine.execFcpys t d a b s
  | .fcmp c t p a b => Sys2Proof.Machine.execFcmp c t p a b s
  | .fpcmp c t m a b => Sys2Proof.Machine.execFpcmp c t m a b s
  | .fcvt c d a r sf => Sys2Proof.Machine.execFcvt c d a r sf s
  | .frnd r t d a => Sys2Proof.Machine.execFrnd r t d a s
  | .ftoi r t d a u => Sys2Proof.Machine.execFtoi r t d a u s
  | .itof r t d a u => Sys2Proof.Machine.execItof r t d a u s
  | .frcp f d a => Sys2Proof.Machine.execFrcp f d a s
  | .frsq f d a => Sys2Proof.Machine.execFrsq f d a s
  | .fsqrt f d a => Sys2Proof.Machine.execFsqrt f d a s
  | .fex2 d a => Sys2Proof.Machine.execFex2 d a s
  | .flg2 d a => Sys2Proof.Machine.execFlg2 d a s
  | .fsin d a => Sys2Proof.Machine.execFsin d a s
  | .fcos d a => Sys2Proof.Machine.execFcos d a s
  | .ftnh d a => Sys2Proof.Machine.execFtnh d a s
  | .fscl t d a b => Sys2Proof.Machine.execFscl t d a b s
  | .fcls t d a => Sys2Proof.Machine.execFcls t d a s
  | .shfl e d a b => Sys2Proof.Machine.execShfl e d a b s
  | .slide e v d a b => Sys2Proof.Machine.execSlide e v d a b s
  | .bcst e d a b => Sys2Proof.Machine.execBcst e d a b s
  | .lscan imm o d a e => Sys2Proof.Machine.execLscan imm o d a e s
  | .lsscan imm o d a b => Sys2Proof.Machine.execLsscan imm o d a b s
  | .lred imm o d a e => Sys2Proof.Machine.execLred imm o d a e s
  | .isect d a b => Sys2Proof.Machine.execIsect d a b s
  | .ldd d a imm => Sys2Proof.Machine.execLdd d a imm s
  | .ldw d a imm => Sys2Proof.Machine.execLdw d a imm s
  | .ldh d a imm => Sys2Proof.Machine.execLdh d a imm s
  | .ldb d a imm => Sys2Proof.Machine.execLdb d a imm s
  | .ldx t sf e d a b => Sys2Proof.Machine.execLdx t sf e d a b s
  | .std d a imm => Sys2Proof.Machine.execStd d a imm s
  | .stw d a imm => Sys2Proof.Machine.execStw d a imm s
  | .sth d a imm => Sys2Proof.Machine.execSth d a imm s
  | .stb d a imm => Sys2Proof.Machine.execStb d a imm s
  | .stx e d a b => Sys2Proof.Machine.execStx e d a b s
  | .lds sf e d a b => Sys2Proof.Machine.execLds sf e d a b s
  | .sts e d a b => Sys2Proof.Machine.execSts e d a b s
  | .prfl1 a b => Sys2Proof.Machine.execPrfl1 a b s
  | .prfl2 a b => Sys2Proof.Machine.execPrfl2 a b s
  | .dscd a b => Sys2Proof.Machine.execDscd a b s
  | .atom o d a b => Sys2Proof.Machine.execAtom o d a b s
  | .atomw o d a b => Sys2Proof.Machine.execAtomw o d a b s
  | .atred o z a b => Sys2Proof.Machine.execAtred o z a b s
  | .cas w d a b => Sys2Proof.Machine.execCas w d a b s
  | .fence sf k => Sys2Proof.Machine.execFence sf k s
  | .waitf c d a b => Sys2Proof.Machine.execWaitf c d a b s
  | .bars imm => Sys2Proof.Machine.execBars imm s
  | .bara imm => Sys2Proof.Machine.execBara imm s
  | .barw imm => Sys2Proof.Machine.execBarw imm s
  | .bari a imm => Sys2Proof.Machine.execBari a imm s
  | .gbar => Sys2Proof.Machine.execGbar s
  | .tlwait c a => Sys2Proof.Machine.execTlwait c a s
  | .tlrd c d => Sys2Proof.Machine.execTlrd c d s
  | .stq q a => Sys2Proof.Machine.execStq q a s
  | .goCopy d c => Sys2Proof.Machine.execGoCopy d c s
  | .goGather d c => Sys2Proof.Machine.execGoGather d c s
  | .txb => Sys2Proof.Machine.execTxb s
  | .txc d => Sys2Proof.Machine.execTxc d s
  | .txa a => Sys2Proof.Machine.execTxa a s
  | .txs d => Sys2Proof.Machine.execTxs d s
  | .mma o p sf u t a b => Sys2Proof.Machine.execMma o p sf u t a b s
  | .accrd f k d t y => Sys2Proof.Machine.execAccrd f k d t y s
  | .accwr f k t a y => Sys2Proof.Machine.execAccwr f k t a y s
  | .accz f t n => Sys2Proof.Machine.execAccz f t n s
  | .spawn d a b => Sys2Proof.Machine.execSpawn d a b s
  | .spawnr d a b => Sys2Proof.Machine.execSpawnr d a b s
  | .tail d a => Sys2Proof.Machine.execTail d a s
  | .claim n d a => Sys2Proof.Machine.execClaim n d a s
  | .fulfil a b => Sys2Proof.Machine.execFulfil a b s
  | .relinq a => Sys2Proof.Machine.execRelinq a s
  | .forget a => Sys2Proof.Machine.execForget a s
  | .edit d a imm => Sys2Proof.Machine.execEdit d a imm s
  | .propagate y d a b => Sys2Proof.Machine.execPropagate y d a b s
  | .trcon => Sys2Proof.Machine.execTrcon s
  | .trcoff => Sys2Proof.Machine.execTrcoff s
  | .tdig d => Sys2Proof.Machine.execTdig d s
  | .tstat d a => Sys2Proof.Machine.execTstat d a s
  | .rbgive k a n => Sys2Proof.Machine.execRbgive k a n s
  | .rbtake d k n => Sys2Proof.Machine.execRbtake d k n s
  | .gangVote team gang => Sys2Proof.Machine.execGangVote team gang s
  | .regroup team => Sys2Proof.Machine.execRegroup team s
  | .loadComplete op => Sys2Proof.Machine.execLoadComplete op s
  | .atomicComplete op => Sys2Proof.Machine.execAtomicComplete op s
  | .storeAcknowledge site => Sys2Proof.Machine.execStoreAcknowledge site s
  | .waitfObservation team gang lane => Sys2Proof.Machine.execWaitfObservation team gang lane s
  | .claimResultDelivery op => Sys2Proof.Machine.execClaimResultDelivery op s
  | .txcComplete op => Sys2Proof.Machine.execTxcComplete op s
  | .spawnComplete op => Sys2Proof.Machine.execSpawnComplete op s
  | .spawnrDeparture op => Sys2Proof.Machine.execSpawnrDeparture op s
  | .mmaComplete op check => Sys2Proof.Machine.execMmaComplete op check s
  | .accrdComplete op => Sys2Proof.Machine.execAccrdComplete op s
  | .engineCommandStart cmd => Sys2Proof.Machine.execEngineCommandStart cmd s
  | .copyCommandComplete cmd => Sys2Proof.Machine.execCopyCommandComplete cmd s
  | .gatherCommandComplete cmd => Sys2Proof.Machine.execGatherCommandComplete cmd s
  | .launchDispatch queue => Sys2Proof.Machine.execLaunchDispatch queue s
  | .teamAdmission task => Sys2Proof.Machine.execTeamAdmission task s
  | .zeroingComplete team => Sys2Proof.Machine.execZeroingComplete team s
  | .taskEnd team => Sys2Proof.Machine.execTaskEnd team s
  | .reckonerStartTask ctx => Sys2Proof.Machine.execReckonerStartTask ctx s
  | .detGrant launch => Sys2Proof.Machine.execDetGrant launch s
  | .killDrainComplete team => Sys2Proof.Machine.execKillDrainComplete team s
  | .preemptDrainComplete team => Sys2Proof.Machine.execPreemptDrainComplete team s
  | .teamRestore team => Sys2Proof.Machine.execTeamRestore team s
  | .tableWalkComplete walk => Sys2Proof.Machine.execTableWalkComplete walk s
  | .faultRecordPost => Sys2Proof.Machine.execFaultRecordPost s
  | .invalComplete inval => Sys2Proof.Machine.execInvalComplete inval s
  | .auditReplay audit => Sys2Proof.Machine.execAuditReplay audit s
  | .auditReplayEnd audit => Sys2Proof.Machine.execAuditReplayEnd audit s
  | .l2Scrub sector result => Sys2Proof.Machine.execL2Scrub sector result s
  | .storageError site corrected => Sys2Proof.Machine.execStorageError site corrected s
  | .ctxset ctx table privBase privSize saveBase saveSize gangQuota poolQuota => Sys2Proof.Machine.execCtxset ctx table privBase privSize saveBase saveSize gangQuota poolQuota s
  | .qcfg queue ctx priority ringBase entries template => Sys2Proof.Machine.execQcfg queue ctx priority ringBase entries template s
  | .qdestroy queue => Sys2Proof.Machine.execQdestroy queue s
  | .inval ctx va pages => Sys2Proof.Machine.execInval ctx va pages s
  | .resolve fault action => Sys2Proof.Machine.execResolve fault action s
  | .aperture entry kind target => Sys2Proof.Machine.execAperture entry kind target s
  | .trrel ctx => Sys2Proof.Machine.execTrrel ctx s
  | .budget core budget => Sys2Proof.Machine.execBudget core budget s
  | .backing base entries => Sys2Proof.Machine.execBacking base entries s
  | .preempt ctx core slot hold => Sys2Proof.Machine.execPreempt ctx core slot hold s
  | .fqset base entries vector => Sys2Proof.Machine.execFqset base entries vector s
  | .mcqset base entries vector => Sys2Proof.Machine.execMcqset base entries vector s
  | .resume ctx => Sys2Proof.Machine.execResume ctx s
  | .audit core enable k => Sys2Proof.Machine.execAudit core enable k s
  | .qtailWrite queue size address => Sys2Proof.Machine.execQtailWrite queue size address s
  | .qstatWrite queue value => Sys2Proof.Machine.execQstatWrite queue value s
  | .edwinWrite size address data => Sys2Proof.Machine.execEdwinWrite size address data s
  | .mcheadWrite value => Sys2Proof.Machine.execMcheadWrite value s
  | .registerWrite offset size value => Sys2Proof.Machine.execRegisterWrite offset size value s
  | .hostMemoryWrite address data => Sys2Proof.Machine.execHostMemoryWrite address data s
  | .hostMemoryRead address size => Sys2Proof.Machine.execHostMemoryRead address size s
  | .packetForward port packet => Sys2Proof.Machine.execPacketForward port packet s
  | .taskPacketArrival packet => Sys2Proof.Machine.execTaskPacketArrival packet s
  | .remoteRequestArrival packet => Sys2Proof.Machine.execRemoteRequestArrival packet s
  | .responseArrival packet => Sys2Proof.Machine.execResponseArrival packet s
  | .acknowledgementArrival packet => Sys2Proof.Machine.execAcknowledgementArrival packet s
  | .negativeAckArrival packet => Sys2Proof.Machine.execNegativeAckArrival packet s
  | .linkFlitError port replayed => Sys2Proof.Machine.execLinkFlitError port replayed s
  | .linkErrorWindow port count => Sys2Proof.Machine.execLinkErrorWindow port count s
  | .linkPortDown port => Sys2Proof.Machine.execLinkPortDown port s
  | .islandRailGood => Sys2Proof.Machine.execIslandRailGood s
  | .islandRailLost => Sys2Proof.Machine.execIslandRailLost s
  | .islandOnlyReset => Sys2Proof.Machine.execIslandOnlyReset s
  | .computeOnlyReset => Sys2Proof.Machine.execComputeOnlyReset s
  | .computePowerOff => Sys2Proof.Machine.execComputePowerOff s
  | .regulatorTrip regulator => Sys2Proof.Machine.execRegulatorTrip regulator s
  | .islandDrainComplete => Sys2Proof.Machine.execIslandDrainComplete s
  | .islandReturnFull => Sys2Proof.Machine.execIslandReturnFull s
  | .islandUnavailable => Sys2Proof.Machine.execIslandUnavailable s
  | .rootOfTrustCheck fusesReadable => Sys2Proof.Machine.execRootOfTrustCheck fusesReadable s
  | .islandFirmwareLoad image => Sys2Proof.Machine.execIslandFirmwareLoad image s
  | .linkTraining trained config => Sys2Proof.Machine.execLinkTraining trained config s
  | .bootImageLoad images => Sys2Proof.Machine.execBootImageLoad images s
  | .bDieRelease images => Sys2Proof.Machine.execBDieRelease images s
  | .computeDieRelease images => Sys2Proof.Machine.execComputeDieRelease images s
  | .attestationRequest nonce => Sys2Proof.Machine.execAttestationRequest nonce s
  | .bootResumeCommand => Sys2Proof.Machine.execBootResumeCommand s
  | .recoveryImage image => Sys2Proof.Machine.execRecoveryImage image s
  | .portRestoreCommand port => Sys2Proof.Machine.execPortRestoreCommand port s
  | .coreUnretireCommand core => Sys2Proof.Machine.execCoreUnretireCommand core s
  | .coreErrorWindow core array count => Sys2Proof.Machine.execCoreErrorWindow core array count s
  | .linkUp port => Sys2Proof.Machine.execLinkUp port s

end Sys2Proof.Machine
end

