-- ==== Sys2Proof/Machine/Settle.lean ====
section
/-! DEFINITION. What follows each step at once: waits that nothing holds any longer end, traces and launches reach their
ends (R39, R105, R331), a DET launch is tested for DEADLOCK (R308), completed commands are counted (R266), port 12
answers while the island is unavailable (R351), and the device brings the trace store up to date (R114). -/

namespace Sys2Proof.Machine

/-! ## The records of a trace (Tables 5.3 to 5.7) -/

def NodeState.code : NodeState → Nat
  | .running => 0
  | .live => 1
  | .stale => 2
  | .reexec => 3
  | .remarked => 4

/-- The trace header of Table 5.3. -/
def Trace.header (t : Trace) : List Byte :=
  [t.state.code, t.nodes.length, t.recordUsed, t.indexUsed, t.staleCount, t.propReexec, t.propSpliced,
    t.propDiscarded].flatMap (bytesOfNat 8)

/-- The read entry of Table 5.5. -/
def State.readEntry (s : State) : ReadKey → Nat
  | .granule g => g % 2 ^ 50
  | .claim name => 2 ^ 63 + caddyHome name * 2 ^ 30 + ((s.claim? name).map Claim.index).getD 0

/-- The edge entry of Table 5.7. -/
def Trace.edgeEntry (t : Trace) (child : Nat) : List Byte :=
  let off := ((t.nodeIndex child).map fun k => t.nodeOffset k / 64).getD 0
  let addr := ((t.node? child).map Node.descAddr).getD 0#64
  bytesOfNat 8 (off * 2 ^ 24) ++ bytesOfNat 8 addr.toNat

/-- A node's lists. -/
def State.listBytes (s : State) (t : Trace) (n : Node) : List Byte :=
  (n.reads.flatMap fun k => bytesOfNat 8 (s.readEntry k)) ++ n.edges.flatMap t.edgeEntry

/-- The trace node of Table 5.4. -/
def State.nodeBytes (s : State) (t : Trace) (k : Nat) (n : Node) : List Byte :=
  let ordinal := match s.task? n.task with
    | some x => x.ordinal.toNat
    | none => 0
  let parent := ((n.parent.bind t.nodeIndex).map fun p => t.nodeOffset p / 64).getD 0
  let flags := bitOf n.positional * 2 ^ 32 + bitOf (!n.fulfilled.isEmpty) * 2 ^ 34 + bitOf n.parent.isNone * 2 ^ 35
  bytesOfNat 16 (flags + n.state.code * 2 ^ 40 + parent % 2 ^ 40 * 2 ^ 48 + t.listOffset k / 64 % 2 ^ 40 * 2 ^ 88)
    ++ bytesOfNat 4 n.edges.length ++ bytesOfNat 4 n.reads.length ++ bytesOfNat 8 n.descDigest.toNat
    ++ bytesOfNat 8 n.taskDigest.toNat ++ bytesOfNat 8 ordinal ++ bytesOfNat 16 n.key.toNat

/-- The pieces of a trace store that records fill, by offset. -/
def State.storeImage (s : State) (t : Trace) : List (Nat × List Byte) :=
  (0, t.header) :: (t.nodes.mapIdx fun k n => [(t.nodeOffset k, s.nodeBytes t k n), (t.listOffset k, s.listBytes t n)]).flatten

/-- The bytes of a trace store, by offset, within its size. -/
def State.storeCells (s : State) (t : Trace) : List (Nat × Byte) :=
  ((s.storeImage t).flatMap fun x => x.2.mapIdx fun k b => (x.1 + k, b)).filter fun c => decide (c.1 < t.size)

/-- Bytes of a trace store are written, where its page lies in device memory. -/
def State.storeWrite (s : State) (ctx : Nat) (va : W64) (bs : List Byte) : State :=
  match s.walk ctx va with
  | (s, .leaf e) => if leafPhys e va < deviceBytes then s.deviceWrite (leafPhys e va) bs else s
  | (s, _) => s

/-- Write one byte of a trace store. -/
def State.writeStore (s : State) (t : Trace) (c : Nat × Byte) : State :=
  let va := t.base + BitVec.ofNat 64 c.1
  s.orLater { act := .store, ctx := t.ctx, va, bytes := [c.2] } fun s => s.storeWrite t.ctx va [c.2]

/-- Bring a trace store up to date: the bytes that differ from what its records held before. -/
def State.renderTrace (s old : State) (t : Trace) : State :=
  let before := match old.trace? t.ctx with
    | some o => if o.launch == t.launch then old.storeCells o else []
    | none => []
  if t.state == .released then
    if (old.trace? t.ctx).any fun o => o.state == .released then s else s.writeStore t (0, BitVec.ofNat 8 (TraceState.code .released))
  else ((s.storeCells t).filter fun c => !before.contains c).foldl (fun s c => s.writeStore t c) s

/-- A trace that another has replaced is RELEASED in its store. -/
def State.renderReleased (s : State) (o : Trace) : State :=
  if (s.trace? o.ctx).any fun t => t.launch == o.launch then s
  else s.writeStore o (0, BitVec.ofNat 8 (TraceState.code .released))

/-- Bring every trace store up to date with a step. -/
def State.renderTraces (s old : State) : State :=
  if s.traces == old.traces then s
  else
    let s := (old.traces.filter fun t => t.state != .released).foldl State.renderReleased s
    s.traces.foldl (fun s t => s.renderTrace old t) s

/-! ## Writes of units that waited for a page (R263) -/

/-- A unit's write comes about. -/
def State.unitAct (s : State) (w : UnitWrite) : State :=
  match w.act with
  | .field => (s.unitWrite w.ctx w.va w.bytes).1
  | .completion => s.completionWrite w.ctx w.va w.bytes
  | .edit => s.editWrite w.ctx w.va w.bytes
  | .store => s.storeWrite w.ctx w.va w.bytes

/-- Those whose page has been zeroed come about, in their order. -/
def State.settleUnits (s : State) : State :=
  s.unitWrites.foldl (fun s w => s.orLater w fun s => s.unitAct w) { s with unitWrites := [] }

/-! ## Stores that were kept back (R101) -/

/-- A mark that lies above an entry's old name lies above its new one too. -/
def raiseMark (old new mark : Nat) : Nat := if old < mark then max mark (new + 1) else mark

/-- Whether an entry is of a thread's own making. -/
def StoreOp.ofThread (y x : StoreOp) : Bool :=
  y.command.isNone && y.team == x.team && y.gang == x.gang && y.lane == x.lane

/-- An entry that was kept back enters its core's path with a new name, which what its thread's releases and acquires put
after it follows. -/
def State.enterPath (s : State) (core : Nat) (x : StoreOp) : State :=
  let n := s.nextUid
  let up := raiseMark x.uid n
  let s := s.modCore core fun c =>
    { c with stores := ((c.stores.filter fun y => y.uid != x.uid).map fun y =>
        if y.deferred && y.ofThread x then { y with after := up y.after } else y) ++ [{ x with uid := n, deferred := false }] }
  let s : State := { s with ops := s.ops.map fun (o : Op) =>
    if o.team == x.team && o.gang == x.gang && o.lane == x.lane then { o with after := up o.after } else o }
  let s := s.modThread x.team x.gang x.lane fun t => { t with seen := up t.seen, relStore := up t.relStore }
  (s.modGang x.team x.countGang fun g => { g with unacked := g.unacked + 1 }).bump

/-- The stores of a core that nothing keeps back any longer enter its path, in their order. -/
def State.enterPaths (s : State) (core : Nat) : State :=
  ((s.core core).stores.filter fun x => x.deferred && !s.acquires x.team x.gang x.lane x.seq).foldl (fun s x =>
    match (s.core core).stores.find? fun y => y.uid == x.uid with
    | some y => s.enterPath core y
    | none => s) s

def State.settleStores (s : State) : State :=
  ((s.cores.filter fun c => c.2.stores.any StoreOp.deferred).map Prod.fst).foldl State.enterPaths s

/-- The threads that a WAITM has released go on once nothing is before them (R91). -/
def Gang.hasReleased (g : Gang) : Bool :=
  g.threads.any fun t =>
    match t.blocked with
    | .released _ => true
    | _ => false

def State.settleWaitms (s : State) : State :=
  (s.teams.flatMap fun t => ((t.gangs.mapIdx fun k g => (k, g)).filter fun x => x.2.hasReleased).map fun x =>
    (t.uid, x.1)).foldl (fun s x => s.settleReleases x.1 x.2) s

/-! ## Traces and launches -/

/-- Every trace settles as far as it can. -/
def State.settleTraces (s : State) : State := ((s.traces.map Trace.ctx).foldl State.settleTrace s).settleProps

/-- A launch: its global barrier, its deadlock test and its end. -/
def State.settleLaunch (s : State) (launch : Nat) : State :=
  let s := s.checkGbar launch
  let s := match s.launch? launch with
    | some l => if s.deadlocked l then s.failDeadlock l else s
    | none => s
  s.checkLaunch launch

def State.settleLaunches (s : State) : State :=
  ((s.launches.filter fun l => l.state != .queued).map Launch.uid).foldl State.settleLaunch s

/-- Regroup waits that nothing can end (R311). -/
def State.settleRegroups (s : State) : State :=
  ((s.teams.filter fun t => t.gangs.any fun g => g.threads.any Thread.atRewarp).map Team.uid).foldl State.checkConverge s

/-- A thread whose clause has retired and that no longer waits elsewhere reaches its clause's wait: it stands in no
path and at no body word. -/
def Gang.reachWaits (g : Gang) : Gang :=
  { g with threads := g.threads.mapIdx fun l t =>
      if t.resume.isNone && !g.paths.any fun p => p.lanes.getLsbD l then t.reachWait else t }

def State.settleWaits (s : State) : State :=
  { s with teams := s.teams.map fun t => { t with gangs := t.gangs.map Gang.reachWaits } }

/-- Port 12 answers what waits while the island is unavailable (R351). -/
def State.settlePort (s : State) : State :=
  if s.island.unavailable && !s.outPackets.isEmpty then s.answerWaiting else s

/-- What follows a step at once. -/
def State.settle (s old : State) : State :=
  (((((s.settlePort.settleUnits.settleStores.settleWaitms.settleWaits).settleRegroups).settleTraces).settleLaunches.settleTraces).settleCommands.renderTraces old).evict

end Sys2Proof.Machine
end

