-- ==== Sys2Proof/Machine/Schedule.lean ====
section
/-! DEFINITION. What can happen next (R6, R48, R58): the paths that may issue and the steps of the device that may be
due; and the small machine that withFetchWord sets up. -/

namespace Sys2Proof.Machine

/-! ## Paths that may issue -/

/-- Whether a path waits for a walk or for its grant. -/
def Path.waits (p : Path) : Bool := !p.walks.isEmpty || !p.grants.isEmpty

/-- Whether a path of a team may issue: it runs, or drains and the path stands at no point where it stops (R50). -/
def Team.mayIssue (t : Team) (g : Gang) (p : Path) : Bool :=
  t.kill.isNone && g.activeSlot.isSome && !p.waits && (t.runs || (t.state == .draining && !p.pausable))

/-! ## Steps of the device that may be due -/

/-- The steps of a gang and its threads. -/
def gangSteps (t : Team) (k : Nat) (g : Gang) : List Instr :=
  .gangVote t.uid k :: (g.threads.mapIdx fun l th =>
    match th.blocked with
    | .waitf .. => [Instr.waitfObservation t.uid k l]
    | _ => []).flatten

/-- The step of an engine command. -/
def commandSteps (c : Command) : List Instr :=
  match c.state with
  | .queued => [.engineCommandStart c.uid]
  | .running => [if c.gather then .gatherCommandComplete c.uid else .copyCommandComplete c.uid]
  | _ => []

/-- The steps of a team. -/
def teamSteps (t : Team) : List Instr :=
  (match t.state with
   | .zeroing => [.zeroingComplete t.uid]
   | .running => [.regroup t.uid]
   | .draining => [.preemptDrainComplete t.uid]
   | .saved => [.teamRestore t.uid]
   | .exiting => [.taskEnd t.uid]
   | .killed => [.killDrainComplete t.uid]
   | .replay => [.regroup t.uid])
  ++ (t.gangs.mapIdx fun k g => gangSteps t k g).flatten ++ t.commands.flatMap commandSteps

/-- The step that a pending operation waits for; the array's checks pass unless an input says otherwise. -/
def opStep (o : Op) : Instr :=
  match o.kind with
  | .load _ => .loadComplete o.uid
  | .atomic _ | .returned .. => .atomicComplete o.uid
  | .claim .. => .claimResultDelivery o.uid
  | .txc .. => .txcComplete o.uid
  | .spawn .. => .spawnComplete o.uid
  | .spawnr .. => .spawnrDeparture o.uid
  | .mma _ => .mmaComplete o.uid .passed
  | .accrd _ => .accrdComplete o.uid

/-- The device's own steps, due or not. -/
def State.deviceSteps (s : State) : List Instr :=
  s.teams.flatMap teamSteps ++ s.ops.map opStep
    ++ (s.cores.flatMap fun c => c.2.stores.map fun x => Instr.storeAcknowledge ⟨c.1, x.uid⟩)
    ++ (s.queues.map fun q => Instr.launchDispatch q.id)
    ++ ((s.tasks.filter fun k => k.state == .waiting).map fun k => Instr.teamAdmission k.uid)
    ++ (s.traces.map fun t => Instr.reckonerStartTask t.ctx)
    ++ (s.launches.map fun l => Instr.detGrant l.uid)
    ++ (s.walks.map fun w => Instr.tableWalkComplete w.uid)
    ++ [.faultRecordPost] ++ (s.invals.map fun v => Instr.invalComplete v.uid)
    ++ (s.audits.flatMap fun a => [Instr.auditReplay a.uid, .auditReplayEnd a.uid])
    ++ (s.outPackets.map fun p => Instr.packetForward 12 p)
    ++ [.islandDrainComplete, .islandReturnFull, .islandUnavailable]

/-! ## One word as the first (withFetchWord) -/

/-- A clause that holds a word: the word itself where it is a header; otherwise behind a header that gives its flagged
operation f0, and before a YIELD where it is a prefix. -/
def clauseAround (w : W32) : List W32 :=
  if markerH w = 15#4 then [w]
  else
    let op := (major w).toNat
    let body := if op == 0x0A || op == 0x0B then [w, packR 0x10#7 0#4 0#7 0#7 0#7] else [w]
    packH 0#12 (if flaggedWord w then 0#4 else 15#4) 15#4 (BitVec.ofNat 4 body.length) 0#1 0#3 :: body

/-- The code address of that clause, virtual and physical. -/
def probeCode : Nat := 0x10000

/-- A leaf that maps the first 64 GiB of a context's addresses to the same physical addresses, for any access. -/
def probeLeaf : W64 := 0x103F#64

/-- The team whose one path stands at the word. -/
def probeTeam (uid task launch : Nat) (w : W32) : Team :=
  let ws := clauseAround w
  let thread : Thread := { Thread.blank with pc := BitVec.ofNat 64 probeCode, x := List.replicate 256 0#64, privBase := 0x20000#64 }
  let path : Path :=
    { uid, lanes := BitVec.allOnes 32, header := BitVec.ofNat 64 probeCode, words := ws, pos := ws.length.min 2 - 1, guard := none
      rep := none, prefixPos := none, prefixes := 0, flagged := 0, taken := 0#32, start := 0, busyFlag := none
      yielded := false, icinv := false, grants := [], walks := [], fetched := [], unmapped := [], held := false }
  let gang : Gang :=
    { threads := (List.range 32).map fun l => { thread with privBase := BitVec.ofNat 64 (0x20000 + 256 * l) }
      masks := List.replicate 12 0#32, flags := 0#12, paths := [path], ages := [], serial := false
      laneAges := List.replicate 32 0, unacked := 0, clock := 0, filter := [], tx := none, lateTx := [], slot := 0
      residency := .active, activeSlot := some 0, age := 0 }
  { uid, task, launch, ctx := 0, core := 0, state := .running, regs8 := 32, privUnits := 1, scratchUnits := 1, accTiles := 4
    privBlock := 0x20000#64, scratch := Memory.empty, logs := [], acc := Memory.empty, follower := Memory.empty
    barriers := List.replicate 8 { expected := 32, arrivals := 0, episode := 0, mark := 0 }, barBase := 0, engMap := 1#16
    timelines := [{ issued := 0, counter := 0 }], queueRegs := List.replicate 4 0#64, blocks := List.replicate 8 none
    commands := [], gangs := [gang], kill := none, drainWanted := false, saveOrder := 0, saveArea := 0#64
    ineligible := false, audit := none }

/-- A FULL island. -/
def probeIsland (i : Island) : Island :=
  { i with state := .full, step := 6, held := false, managementUp := true, computeUp := true, port12Up := true, unavailable := false }

/-- The machine with a word as the next that issues: the boot of Table 12.10 done, a context, a queue with its running
launch, and its one root task as a team of one gang on core 0, whose path stands at the word. -/
def State.probe (s : State) (w : W32) : State :=
  let n := s.nextUid
  let l := launchOfRecord n 0x8000#64 0 0 0 none 0
  { s with
    mem := s.mem.writeBytes probeCode ((clauseAround w).flatMap bytesOfWord)
    island := probeIsland s.island
    contexts := { id := 0, table := 0, privBase := 0x20000, privSize := 0x10000, saveBase := 0x40000, saveSize := 0x400000,
                  gangQuota := 64, poolQuota := 96, held := false } :: s.contexts.filter fun c => c.id != 0
    queues := { Queue.blank 0 with enabled := true, entries := 16, ringBase := 0x7000, running := some n }
      :: s.queues.filter fun q => q.id != 0
    launches := s.launches ++ [l], launchedOnce := true
    tasks := s.tasks ++ [{ rootTask l (n + 1) 0 (2 ^ 63) with state := .resident }]
    teams := s.teams ++ [probeTeam (n + 2) (n + 1) n w]
    cores := insertAt s.cores 0 { s.core 0 with tlb := { ctx := 0, base := 0, size := 2 ^ 36, leaf := probeLeaf } :: (s.core 0).tlb }
    agenda := some { team := n + 2, gang := 0, path := n + 2 }
    nextUid := n + 3 }

end Sys2Proof.Machine
end

