-- ==== Sys2Proof/Machine/Arbiter.lean ====
section
/-! DEFINITION. The issue arbiter of a core (R47, R48, R58, R221): on each clock its four issue slots go to ready paths of
its active gangs, and a clock comes when the votes that start something have been held. -/

namespace Sys2Proof.Machine

/-! ## Ready paths -/

/-- Whether the word of a held path would stand where it is. -/
def State.standsStill (s : State) (c : Cursor) (p : Path) : Bool :=
  let s := { s with cur := some c }
  p.held &&
    match p.instr with
    | .ok i =>
      match exec i s with
      | .next s' => s' == s
      | _ => true
    | .error _ => false

/-- Whether a path is ready: it may issue, and its word does not merely stand. -/
def State.ready (s : State) (c : Cursor) : Bool :=
  match s.team? c.team, s.gang? c.team c.gang, s.path? c with
  | some t, some g, some p => t.mayIssue g p && !s.standsStill c p
  | _, _, _ => false

/-- The PC of a path: where it started (log 29). -/
def Path.pc (p : Path) : W64 := p.addr p.start

/-- The ready paths of a gang, lower PC first, which is also the one that takes the last of the four slots where one is
left: R48 gives one slot to each ready path and does not say which of two goes without (DESIGN CHOICE, log 1). -/
def State.readyOf (s : State) (team gang : Nat) (g : Gang) : List Cursor :=
  (sortBy (fun a b => decide (a.pc < b.pc)) g.paths).filterMap fun p =>
    let c : Cursor := { team, gang, path := p.uid }
    if s.ready c then some c else none

/-! ## The walk of one clock (R48) -/

/-- An active gang of a core. -/
structure Walker where
  team : Team
  gang : Nat
  state : Gang
  active : Nat
  deriving DecidableEq, Repr

/-- The active gangs of a core. -/
def State.walkers (s : State) (core : Nat) : List Walker :=
  (s.teams.filter fun t => t.core == core).flatMap fun t =>
    (t.gangs.mapIdx fun k g => (g.activeSlot.map fun a => ({ team := t, gang := k, state := g, active := a } : Walker)).toList).flatten

/-- Older gangs first; the gangs of a team, which are admitted together, by their index. -/
def Walker.older (a b : Walker) : Bool :=
  decide (a.state.age < b.state.age) || (a.state.age == b.state.age && decide (a.gang < b.gang))

/-- Whether a gang stands behind the one at which a walk started, in the order of age. -/
def Walker.behind (w : Walker) (at' : WalkStart) : Bool :=
  decide (at'.age < w.state.age) || (at'.age == w.state.age && decide (at'.gang < w.gang))

/-- The active gangs of a core by age, from the one behind a walk's start on. -/
def State.fromBehind (s : State) (core : Nat) (at' : WalkStart) : List Walker :=
  let ws := sortBy Walker.older (s.walkers core)
  (ws.filter fun w => w.behind at') ++ ws.filter fun w => !w.behind at'

/-- Where the next clock's walk starts: one gang later in the order of age, and one active slot later (R48). -/
def State.startAfter (s : State) (core : Nat) (at' : WalkStart) : WalkStart :=
  let slot := (at'.slot + 1) % 8
  match s.fromBehind core at' with
  | w :: _ => { slot, age := w.state.age, gang := w.gang }
  | [] => { at' with slot }

/-- The start of the walk some clocks later. -/
def State.startLater (s : State) (core : Nat) : Nat → WalkStart → WalkStart
  | 0, at' => at'
  | n + 1, at' => s.startLater core n (s.startAfter core at')

/-- The walk of the clock after one that started at a place: by age, or by active slot where a gang of the core is under
DET. -/
def State.walkOrder (s : State) (core : Nat) (at' : WalkStart) : List Walker :=
  let ws := s.walkers core
  if ws.any fun w => s.detLaunch w.team.launch then
    (List.range 8).filterMap fun k => ws.find? fun w => w.active == (at'.slot + 1 + k) % 8
  else s.fromBehind core at'

/-- The order in which the words of one clock take effect: the lower gang slot first (R221). -/
def State.slotOf (s : State) (c : Cursor) : Nat := ((s.gang? c.team c.gang).map Gang.slot).getD 0

/-- The paths to which the walk of the clock after that start gives the four issue slots. -/
def State.granted (s : State) (core : Nat) (at' : WalkStart) : List Cursor :=
  sortBy (fun a b => decide (s.slotOf a < s.slotOf b))
    (((s.walkOrder core at').flatMap fun w => s.readyOf w.team.uid w.gang w.state).take 4)

/-- Whether a vote of the core that starts something is due: votes do not wait for clocks (R26, R47). -/
def State.votesFirst (s : State) (core : Nat) : Bool :=
  (s.teams.filter fun t => t.core == core && (t.runs || t.state == .draining)).any fun t =>
    (List.range t.gangs.length).any fun k =>
      let s := s.voters t k
      match s.gang? t.uid k with
      | some g => s.voteActs t k g (if t.runs then s.candidates t g else [])
      | none => false

/-- The paths of a core that issue now, in order, and where the walk started: what remains of the clock, or the next
clock, whose walk starts one later, or at any place where idle clocks have passed. -/
def State.turnOf (s : State) (core : Nat) : List Cursor × WalkStart :=
  let c := s.core core
  let left := c.turn.filter s.ready
  if !left.isEmpty then (left, c.walk)
  else if s.votesFirst core then ([], c.walk)
  else
    let last := if c.idle then s.startLater core (Config.choice s.tick % 8) c.walk else c.walk
    (s.granted core last, s.startAfter core last)

/-- A path takes its issue slot. -/
def State.takeTurn (s : State) (core : Nat) (walk : WalkStart) (rest : List Cursor) : State :=
  s.modCore core fun c => { c with turn := rest, walk, idle := false }

/-- The cores that hold teams. -/
def State.usedCores (s : State) : List Nat := (s.teams.map Team.core).dedup

/-- A core on which no path is ready lets clocks pass. -/
def State.noteIdle (s : State) : State :=
  s.usedCores.foldl (fun s core =>
    if (s.core core).idle || (s.walkers core).any fun w => !(s.readyOf w.team.uid w.gang w.state).isEmpty then s
    else s.modCore core fun c => { c with idle := true }) s

/-! ## The router's arbitration (R270) -/

/-- A packet that waits at a port of the router: where it stands among the inputs, if it has come by a link or management
port. -/
structure Waiting where
  input : Option Nat
  port : Nat
  packet : Packet
  deriving DecidableEq, Repr

/-- The packet that an input brings to a port. -/
def Instr.entering? : Instr → Option (Nat × Packet)
  | .packetForward port p => some (port, p)
  | _ => none

/-- The packets that stand first among the inputs, up to the first input that is none. -/
def enteringRun : Nat → List Instr → List Waiting
  | _, [] => []
  | k, i :: is =>
    match Instr.entering? i with
    | some (port, packet) => { input := some k, port, packet } :: enteringRun (k + 1) is
    | none => []

/-- The packets that wait at the router's ports, of each port in the order in which they came. -/
def State.waitingPackets (s : State) : List Waiting :=
  enteringRun 0 s.inbox ++ s.outPackets.map fun p => { input := none, port := 12, packet := p }

/-- Whether one waiting packet stands behind another in a buffer: of one port, channel and way (R271). -/
def State.oneBuffer (s : State) (x y : Waiting) : Bool :=
  x.port == y.port && s.channel x.port x.packet == s.channel y.port y.packet && x.packet.dst == y.packet.dst

/-- The ready packets: those at the head of their buffers that may enter the router. -/
def State.readyPackets (s : State) : List Waiting :=
  let heads := s.waitingPackets.foldl (fun xs y => if xs.any fun x => s.oneBuffer x y then xs else xs ++ [y]) []
  heads.filter fun x => s.mayEnter x.port x.packet

/-- Whether the arbitration of their output port serves one ready packet before another: a higher channel first, and
within a channel round robin among the input ports. -/
def State.servedBefore (s : State) (x y : Waiting) : Bool :=
  match s.outputOf x.packet, s.outputOf y.packet with
  | some o, some p =>
    let c := s.channel x.port x.packet
    let turn := fun (w : Waiting) => (w.port + 13 - s.island.lastPort o c) % 14
    o == p && (decide (s.channel y.port y.packet < c) || (c == s.channel y.port y.packet && decide (turn x < turn y)))
  | _, _ => false

/-- The packets that the router serves next. -/
def State.servedPackets (s : State) : List Waiting :=
  let ready := s.readyPackets
  ready.filter fun y => !ready.any fun x => s.servedBefore x y

/-- The inputs that may happen next, by their place: the first, or where it brings a packet those that the arbitration
serves among the packets that stand first. -/
def State.nextInputs (s : State) : List (Nat × Instr) :=
  match s.inbox with
  | [] => []
  | i :: _ =>
    if (Instr.entering? i).isNone then [(0, i)]
    else s.servedPackets.filterMap fun x => x.input.map fun k => (k, .packetForward x.port x.packet)

/-- Whether a step of the device is held by the router's arbitration: a packet of port 12 that it does not serve. -/
def State.outranked (s : State) (i : Instr) : Bool :=
  match Instr.entering? i with
  | some (_, p) => !s.servedPackets.any fun x => x.port == 12 && x.packet == p
  | none => false

end Sys2Proof.Machine
end

