-- ==== Sys2Proof/Machine/Early.lean ====
section
/-! DEFINITION. A register of a destination run that its operation writes ahead of the others: R139 takes each register of
a run separately, for a CLAIM's two and an ACCRD's one to eight in each lane. -/

namespace Sys2Proof.Machine

/-- The registers of a destination run that an operation has yet to write: lane, place in the run, and destination. -/
def OpKind.owed (k : OpKind) (lane : Nat) : List (Nat × Nat × Dest) :=
  let all : List (Nat × Nat × Dest) := match k with
    | .claim _ d h (some _) => [(lane, 0, d), (lane, 1, h)]
    | .accrd r => (r.dests.flatMap fun x => x.2.mapIdx fun q d => (x.1, q, d)).filter fun x => !r.given.contains (x.1, x.2.1)
    | _ => []
  all.filter fun x => x.2.2 != .discard

/-- One register of a run has come: the operation's completion leaves it as it then is. -/
def OpKind.given (k : OpKind) (lane q : Nat) : OpKind :=
  match k with
  | .claim name d h r => if q == 0 then .claim name .discard h r else .claim name d .discard r
  | .accrd r => .accrd { r with given := (lane, q) :: r.given }
  | k => k

/-- What an operation does to one register of its run: an ACCRD's elements bring their flags. -/
def State.giveOwed (s : State) (t : Team) (k : OpKind) (lane q : Nat) (d : Dest) (th : Thread) : Thread :=
  match k with
  | .claim _ _ _ (some (code, v)) => th.write d (if q == 0 then BitVec.ofNat 64 code else if code == 0 then v else 0#64)
  | .accrd r => r.give s.tick (t.tiles r.follower) lane q d th
  | _ => th

/-- Whether a CLAIM's result is a grant's, and comes by it alone (R295). -/
def State.byGrant (s : State) (t : Team) (k : OpKind) : Bool :=
  match k with
  | .claim .. => s.detLaunch t.launch
  | _ => false

/-- Whether a register of an operation's run may come before the others. A SAVED team's results wait. -/
def State.mayCome (s : State) (o : Op) : Bool :=
  match s.team? o.team with
  | some t => o.live && t.state != .saved && !s.byGrant t o.kind && decide (2 ≤ (o.kind.owed o.lane).length)
  | none => false

/-- One register of an operation's run comes, whichever it is. -/
def State.oneRegister (s : State) (op : Nat) : State :=
  match s.op? op with
  | none => s
  | some o =>
    let owed := o.kind.owed o.lane
    match s.team? o.team, owed[Config.choice s.tick % owed.length]? with
    | some t, some (lane, q, d) =>
      let s := s.modThread o.team o.gang lane (s.giveOwed t o.kind lane q d)
      s.modOp op fun x => { x with kind := o.kind.given lane q }
    | _, _ => s

end Sys2Proof.Machine
end

