-- ==== Sys2Proof/Machine/Step.lean ====
section
/-! DEFINITION. One step of the package: a word issues for a path, or a step of the device or an input happens, with what
follows it at once. -/

namespace Sys2Proof.Machine

/-- What may happen next. -/
inductive Action where
  /-- a path takes the issue slot that a clock of its core gives it -/
  | word (c : Cursor) (core : Nat) (walk : WalkStart) (rest : List Cursor)
  | device (i : Instr)
  /-- one register of an operation's destination run comes before the others (R139) -/
  | register (op : Nat)
  | input (place : Nat) (i : Instr)
  deriving DecidableEq, Repr

/-- Whether a step of the device, or an input, is due. -/
def State.due (s : State) (i : Instr) : Bool :=
  match exec i s with
  | .next _ => true
  | _ => false

/-- The words that issue next, one for each core (R48). -/
def State.issuing (s : State) : List Action :=
  s.usedCores.filterMap fun core =>
    match s.turnOf core with
    | (c :: rest, walk) => some (.word c core walk rest)
    | ([], _) => none

/-- Everything that may happen next. -/
def State.actions (s : State) : List Action :=
  ((s.nextInputs.filter fun x => s.due x.2).map fun x => Action.input x.1 x.2)
    ++ ((s.deviceSteps.filter fun i => !s.outranked i && s.due i).map Action.device)
    ++ ((s.ops.filter s.mayCome).map fun o => Action.register o.uid) ++ s.issuing

/-- What follows a meaning at once: no path issues, the state settles, and time goes on. -/
def finish (before : State) : Host.Outcome State Fault Refusal → Host.Outcome State Fault Refusal
  | .next s => .next (({ s with cur := none }).settle before).noteIdle.advance
  | o => o

/-- Whether a word shows that a replay has diverged: its task issued no such word (R337, R338). -/
def State.diverges (s : State) (c : Cursor) (i : Instr) : Bool :=
  match s.issueAt c with
  | some x => x.replays && auditExcludes x.launch.det i
  | none => false

/-- A word issues for a path: its instruction, or ILLEGAL where it is none. -/
def issueWord (c : Cursor) (s : State) : Host.Outcome State Fault Refusal :=
  match s.path? c with
  | none => .fault .noIssuingPath
  | some p =>
    match p.instr with
    | .ok i =>
      if s.diverges c i then finish s (.next (s.endReplay c.team false)) else finish s (exec i { s with cur := some c })
    | .error _ => finish s (illegalWord { s with cur := some c })

/-- One action. -/
def act (s : State) : Action → Host.Outcome State Fault Refusal
  | .word c core walk rest => issueWord c (s.takeTurn core walk rest)
  | .device i => finish s (exec i s)
  | .register op => finish s (.next (s.oneRegister op))
  | .input place i => finish s (exec i { s with inbox := s.inbox.eraseIdx place })

/-- One step: the path on the agenda issues, or one of the actions that may happen does; where none may, time goes
on. -/
def step (s : State) : Host.Outcome State Fault Refusal :=
  match s.agenda with
  | some c => issueWord c { s with agenda := none }
  | none =>
    match s.actions[Config.choice s.tick % s.actions.length]? with
    | some a => act s.advance a
    | none => .next s.advance

/-- The state with an instruction, numbered as the opcode table numbers it, as the next that step runs. -/
def State.withFetchWord (s : State) (nbits w : Nat) : State := s.probe (BitVec.ofNat 32 (w % 2 ^ nbits))

end Sys2Proof.Machine
end

