-- ==== Sys2Proof/Safety.lean ====
section
/-! DEFINITION. What claims say of a run: the registers of a thread, what a word leaves alone, which operands a thread
may name, and the canonical form of memory. -/

namespace Sys2Proof.Machine

/-! ## Registers (Tables 3.2 to 3.6) -/

/-- The registers of a thread that its own words read and write. -/
structure Regs where
  x : List W64
  y : List W64
  p : BitVec 8
  winBase : Nat
  satf : Bool
  fp : BitVec 5
  retDepth : Nat
  privBase : W64
  trapVec : W64
  recording : Bool
  deriving DecidableEq, Repr

def Thread.regs (t : Thread) : Regs :=
  { x := t.x, y := t.y, p := t.p, winBase := t.winBase, satf := t.satf, fp := t.fp, retDepth := t.retDepth,
    privBase := t.privBase, trapVec := t.trapVec, recording := t.recording }

/-- The registers that an exception saves into, and the mode (R299). -/
structure TrapRegs where
  pc : W64
  cause : W64
  info : W64
  depth : Bool
  deriving DecidableEq, Repr

def Thread.trapRegs (t : Thread) : TrapRegs :=
  { pc := t.trapPc, cause := t.trapCause, info := t.trapInfo, depth := t.trapDepth }

/-- Write a register field: a window register, a y register, or, for the zero operand, nothing (R59, R60). -/
def Regs.set (r : Regs) (d : BitVec 7) (v : W64) : Regs :=
  if d.toNat < 96 then { r with x := r.x.set (r.winBase + d.toNat) v }
  else if d.toNat < 112 then { r with y := r.y.set (d.toNat - 96) v }
  else r

/-- Write a destination that a word has named: a physical register, a y register, or nothing. -/
def Regs.put (r : Regs) (d : Dest) (v : W64) : Regs :=
  match d with
  | .discard => r
  | .x n => { r with x := r.x.set n v }
  | .y n => { r with y := r.y.set n v }

/-- Set one predicate and no other. -/
def Regs.setPred (r : Regs) (k : Nat) (v : Bool) : Regs :=
  { r with p := BitVec.ofFnLE fun j => if j.val = k then v else r.p.getLsbD j.val }

/-! ## Operands that a thread may name (R59, R60, R133) -/

/-- A run of n registers that a word may read: within the registers that the thread owns, within y0 to y15, or the
zero operand; or, for one register, a special operand. -/
def Lane.readable (l : Lane) (f : BitVec 7) (n : Nat) : Prop :=
  (f.toNat + n ≤ 96 ∧ l.thread.winBase + f.toNat + n ≤ l.alloc) ∨ (96 ≤ f.toNat ∧ f.toNat + n ≤ 112) ∨ f = 112#7
    ∨ (n = 1 ∧ 112 ≤ f.toNat ∧ f.toNat ≤ 116)

/-- A run of n registers that a word may write. -/
def Lane.writable (l : Lane) (f : BitVec 7) (n : Nat) : Prop :=
  (f.toNat + n ≤ 96 ∧ l.thread.winBase + f.toNat + n ≤ l.alloc) ∨ (96 ≤ f.toNat ∧ f.toNat + n ≤ 112) ∨ f = 112#7

/-- Every active thread may read these registers. -/
def Issue.reads (i : Issue) (fs : List (BitVec 7)) : Prop := ∀ l ∈ i.active, ∀ f ∈ fs, (i.lane l).readable f 1

/-- Every active thread may write this register. -/
def Issue.writes (i : Issue) (d : BitVec 7) : Prop := ∀ l ∈ i.active, (i.lane l).writable d 1

/-! ## What a word leaves alone -/

/-- What a team holds beside its gangs: scratchpad, accumulators, barriers, timelines, q registers, register blocks. -/
structure Holdings where
  scratch : Memory
  acc : Memory
  follower : Memory
  barriers : List Barrier
  timelines : List Timeline
  queueRegs : List W64
  blocks : List (Option RegBlock)
  deriving DecidableEq, Repr

def Team.holdings (t : Team) : Holdings :=
  { scratch := t.scratch, acc := t.acc, follower := t.follower, barriers := t.barriers, timelines := t.timelines,
    queueRegs := t.queueRegs, blocks := t.blocks }

/-- Device memory, with the masks and poison of its sectors, is as before. -/
def SameMemory (s t : State) : Prop := t.mem = s.mem ∧ t.l2 = s.l2

/-- Every team holds what it held. -/
def SameHoldings (s t : State) : Prop := ∀ u, (t.team? u).map Team.holdings = (s.team? u).map Team.holdings

/-- Every gang's lane masks are as before. -/
def SameMasks (s t : State) : Prop := ∀ u g, (t.gang? u g).map Gang.masks = (s.gang? u g).map Gang.masks

/-- Every core's AUDITCTL is as before. -/
def SameAudit (s t : State) : Prop := ∀ c, (t.core c).auditCtl = (s.core c).auditCtl

/-- Whether a thread waits, or is to wait, at a REWARP: R311 may raise CONVERGE in it when another word retires. -/
def Thread.mayConverge (t : Thread) : Bool :=
  (match t.blocked with
   | .rewarp .. => true
   | _ => false)
  || match t.atRetire with
     | .rewarp .. => true
     | _ => false

/-- No thread enters or leaves handler mode, and none of its saved registers changes, but where R311 raises CONVERGE. -/
def SameTraps (s t : State) : Prop :=
  ∀ u g l th th', s.thread? u g l = some th → t.thread? u g l = some th' → th.mayConverge = false →
    th'.trapRegs = th.trapRegs

/-- Nothing but registers of threads has changed. -/
def Kept (s t : State) : Prop :=
  SameMemory s t ∧ SameHoldings s t ∧ SameMasks s t ∧ SameAudit s t ∧ SameTraps s t

/-- In the active threads of the issuing path the registers have changed as f says, and in no other thread. -/
def RegsBecome (s t : State) (i : Issue) (f : Nat → Regs → Regs) : Prop :=
  ∀ u g l, (t.thread? u g l).map Thread.regs = (s.thread? u g l).map fun th =>
    if u = i.cursor.team ∧ g = i.cursor.gang ∧ l ∈ i.active then f l th.regs else th.regs

/-- A word's whole effect on registers and memory: f in each active thread, and nothing else. -/
def OnlyRegs (s t : State) (i : Issue) (f : Nat → Regs → Regs) : Prop := RegsBecome s t i f ∧ Kept s t

/-- The same for a word that changes no register. -/
def SameRegs (s t : State) : Prop :=
  ∀ u g l, (t.thread? u g l).map Thread.regs = (s.thread? u g l).map Thread.regs

/-! ## Values -/

/-- What an active thread reads for a register field. -/
def Issue.val (i : Issue) (l : Nat) (f : BitVec 7) : W64 := (i.lane l).read f

/-- Element j of a register, for an esize field. -/
def element (e : BitVec 2) (r : W64) (j : Nat) : BitVec (width e) := r.extractLsb' (width e * j) (width e)

/-- How many elements a register has. -/
def elementCount (e : BitVec 2) : Nat := 64 / width e

/-- An element as an integer: unsigned where u is 1, else two's complement. -/
def number {n : Nat} (u : BitVec 1) (x : BitVec n) : Int := if u = 1#1 then x.toNat else x.toInt

/-- The nearest value that an n-bit element holds (SatU and SatS of R80). -/
def clampTo (u : BitVec 1) (n : Nat) (x : Int) : Int :=
  if u = 1#1 then max 0 (min (2 ^ n - 1) x) else max (-2 ^ (n - 1)) (min (2 ^ (n - 1) - 1) x)

/-- Element j of a register in a floating-point format, as a bit pattern. -/
def floatElement (f : FloatFmt) (r : W64) (j : Nat) : Nat := (r.extractLsb' (f.width * j) f.width).toNat

/-- The number that a finite value is. -/
def Fp.real : Fp → ℚ
  | .fin n m e => (if n then -1 else 1) * m * 2 ^ e
  | _ => 0

/-- The flags of the first n element results together. -/
def flagsUpTo (n : Nat) (g : Nat → Flags) : Flags := (List.range n).foldl (fun x j => x ||| g j) 0#5

/-- One combination of Table 8.8 of two elements, with the flags that it raises. -/
def scanCombine (o : BitVec 3) {n : Nat} (x y : BitVec n) : BitVec n × Flags :=
  match o with
  | 0#3 => (x + y, 0#5)
  | 1#3 => (if y.slt x then y else x, 0#5)
  | 2#3 => (if x.slt y then y else x, 0#5)
  | 3#3 => (if y.ult x then y else x, 0#5)
  | 4#3 => (if x.ult y then y else x, 0#5)
  | 5#3 => (x &&& y, 0#5)
  | 6#3 => (x ||| y, 0#5)
  | _ =>
    let r := f64.add .rne (f64.decode x.toNat) (f64.decode y.toNat)
    (BitVec.ofNat n r.bits, r.flags)

/-- The identity of Table 8.8. -/
def scanUnit (o : BitVec 3) (n : Nat) : BitVec n :=
  match o with
  | 1#3 => BitVec.intMax n
  | 2#3 => BitVec.intMin n
  | 3#3 | 5#3 => BitVec.allOnes n
  | _ => 0#n

/-- The combination of elements in ascending rank: the identity for none; each further element adds its flags. -/
def scanOver (o : BitVec 3) {n : Nat} : List (BitVec n) → BitVec n × Flags
  | [] => (scanUnit o n, 0#5)
  | x :: xs => xs.foldl (fun r y => ((scanCombine o r.1 y).1, r.2 ||| (scanCombine o r.1 y).2)) (x, 0#5)

/-- The active lanes below a lane. -/
def Issue.below (i : Issue) (l : Nat) : List Nat := i.active.filter fun k => decide (k < l)

/-! ## The next PC of a clause that ends -/

/-- The issuing word is the last of its clause, has no REP, and no thread of its path has been steered. -/
def Issue.lastWord (i : Issue) : Prop :=
  i.path.pos + 1 = i.path.words.length ∧ i.path.rep = none ∧ i.path.taken = 0#32

/-- Each thread of the path stands where f says, the path having ended; a thread that waits at a REWARP may trap. -/
def PcsBecome (t : State) (i : Issue) (f : Nat → W64) : Prop :=
  t.path? i.cursor = none ∧
    ∀ l ∈ lanesOf i.path.lanes, (i.thread l).mayConverge = false →
      ∀ th, t.thread? i.cursor.team i.cursor.gang l = some th → th.pc = f l ∧ th.resume = none

/-! ## Traps and paths -/

/-- No thread of a team waits, or is to wait, at a REWARP, so that R311 does not come into play. -/
def State.calm (s : State) (u : Nat) : Prop := ∀ g l th, s.thread? u g l = some th → th.mayConverge = false

/-- The threads of the issuing path wait for nothing, now or at the end of their clause. -/
def Issue.free (i : Issue) : Prop :=
  i.path.lanes ≠ 0#32 ∧ ∀ l ∈ lanesOf i.path.lanes,
    (i.thread l).blocked = .none ∧ (i.thread l).atRetire = .none ∧ (i.thread l).exited = false

/-- A thread has entered its handler as R299 says. -/
def Entered (t : State) (i : Issue) (l : Nat) (cause : Nat) (info pc : W64) : Prop :=
  ∀ th, t.thread? i.cursor.team i.cursor.gang l = some th →
    th.trapRegs = { pc, cause := BitVec.ofNat 64 (i.path.pos * 256 + cause), info, depth := true }
    ∧ th.resumeHeader = i.path.header ∧ th.pc = (i.thread l).trapVec + BitVec.ofNat 64 (64 * cause)
    ∧ th.regs = (i.thread l).regs

/-- A thread that can take a trap: it is not in handler mode, and it has a handler table. -/
def Thread.hasHandler (t : Thread) : Prop := t.trapDepth = false ∧ t.trapVec ≠ 0#64 ∧ t.mayConverge = false

/-- The path goes on at a word with what f says of it, in all its threads. -/
def PathBecomes (t : State) (i : Issue) (p : Path) : Prop := t.path? i.cursor = some p

/-! ## Memory -/

/-- Each active thread's access of n bytes at its address is aligned and translates through the TLB, with the rights
that it needs, to pa (R261, R313). -/
def State.finds (s : State) (i : Issue) (need : Need) (n : Nat) (addr : Nat → W64) (pa : Nat → Nat) : Prop :=
  ∀ l ∈ i.active, (addr l).toNat % n = 0 ∧ (isRemote (pa l) = true → s.target (pa l) ≠ .unused)
    ∧ ∃ leaf, s.translate i.team.core i.team.ctx (addr l) need = .ok (pa l) leaf

/-- The same, of pages that are not tracked. -/
def State.reaches (s : State) (i : Issue) (need : Need) (n : Nat) (addr : Nat → W64) (pa : Nat → Nat) : Prop :=
  s.finds i need n addr pa ∧ ∀ l ∈ i.active, ∀ leaf,
    s.translate i.team.core i.team.ctx (addr l) need = .ok (pa l) leaf → pteTracked leaf = false

/-- Nothing stands in the way of a word that accesses memory: its team is no replay and is not killed, its gang has no
transaction, and no release of an active thread is incomplete (R89, R219, R338). -/
def Issue.unheld (i : Issue) : Prop :=
  i.replays = false ∧ i.team.kill = none ∧ i.gang.tx = none
    ∧ (i.gang.unacked = 0 ∨ ∀ l ∈ i.active, (i.thread l).relHold = false)

/-- No log region that a transaction of a team has used meets the n bytes of scratch at an offset (R219). -/
def Team.unlogged (t : Team) (o n : Nat) : Prop := ∀ x ∈ t.logs, t.meetsLog x.gang o n = false

/-- No sector in a core's L1 is poisoned. -/
def Core.clean (c : Core) : Prop := ∀ x ∈ c.l1, x.poisoned = false

/-- A word has issued these operations, one for each active lane, and nothing else has changed among the operations; a
flagged word gives them the flag that its header names, and sets it (R138). -/
def Issued (s t : State) (i : Issue) (what : Nat → OpKind → Prop) : Prop :=
  (∃ new : List Op, t.ops = s.ops ++ new ∧ new.map Op.lane = i.active
    ∧ ∀ o ∈ new, o.team = i.cursor.team ∧ o.gang = i.cursor.gang ∧ o.core = i.team.core ∧ o.pc = i.path.prefixAddr
      ∧ o.flag = (if flaggedWord i.word = true then i.path.flag else none) ∧ o.live = true ∧ what o.lane o.kind)
  ∧ ∀ f, i.path.flag = some f → flaggedWord i.word = true → i.active ≠ [] → ∀ g, t.gang? i.cursor.team i.cursor.gang = some g →
      g.flags.getLsbD f = true

/-- Whether a lane's store that issues now stays out of the path, because a CLAIM or TXC of its thread before it has no
result yet: the model's choice (DESIGN CHOICE, log 20). -/
def State.keepsBack (s : State) (i : Issue) (l : Nat) : Bool :=
  s.defers i.team.core i.cursor.team i.cursor.gang l (i.thread l).memSeq

/-- A word has put these entries at the end of its core's store path, one for each active lane: the lane, the address,
the bytes and what is done with them, and whether it is kept back; the gang's unacknowledged count has grown by those that
are not (R86). -/
def Queued (s t : State) (i : Issue) (entry : Nat → Nat × Nat × List Byte × StoreKind) : Prop :=
  let shown := fun (x : StoreOp) => ((x.lane, x.pa, x.data, x.kind), x.deferred)
  (t.core i.team.core).stores.map shown
      = (s.core i.team.core).stores.map shown ++ i.active.map (fun l => (entry l, s.keepsBack i l))
  ∧ (∀ c, c ≠ i.team.core → (t.core c).stores = (s.core c).stores)
  ∧ ∀ g, t.gang? i.cursor.team i.cursor.gang = some g →
      g.unacked = i.gang.unacked + (i.active.filter fun l => !s.keepsBack i l).length

/-- The registers of one thread have changed as f says, and those of no other. -/
def OneBecomes (s t : State) (team gang lane : Nat) (f : Regs → Regs) : Prop :=
  ∀ u g l, (t.thread? u g l).map Thread.regs = (s.thread? u g l).map fun th =>
    if u = team ∧ g = gang ∧ l = lane then f th.regs else th.regs

/-- Device memory holds these bytes from pa on, and every other byte is as before. -/
def Stored (s t : State) (pa : Nat) (bs : List Byte) : Prop :=
  t.mem.readBytes pa bs.length = bs ∧ ∀ a, (a < pa ∨ pa + bs.length ≤ a) → t.mem.read a = s.mem.read a

/-- All but device memory and registers of threads is as before, in the sense of Kept. -/
def Quiet (s t : State) : Prop := SameHoldings s t ∧ SameMasks s t ∧ SameAudit s t ∧ SameTraps s t

/-- An operation has ended: it has left the pending ones, and a flag that no other holds is clear (R138). -/
def Ended (s t : State) (o : Op) : Prop :=
  t.ops = s.ops.filter (fun p => p.uid != o.uid)
  ∧ ∀ f < 12, o.flag = some f → (∀ p ∈ s.ops, p.uid ≠ o.uid → p.holds o.team o.gang f = false) →
      ∀ g, t.gang? o.team o.gang = some g → g.busy f = false → g.flags.getLsbD f = false

/-- The invariant of a run: device memory has its canonical form. -/
def State.Canonical (s : State) : Prop := s.mem.wf = true

end Sys2Proof.Machine
end

