-- ==== Sys2Proof/WellFormed.lean ====
section
/-! DEFINITION. Which instructions are well formed: a word whose fields hold no value that the specification reserves
(R134, R145), and a step of the device or an input whose operands name something that can exist. -/

namespace Sys2Proof

/-- A set-flag field of a clause header: f0 to f11, or 0xF for none (R134). -/
def flagOk (f : BitVec 4) : Bool := decide (f.toNat < 12) || f == 15#4

/-- The fields of FCVT (R189): conversions 0 to 14; rounding 0 where a conversion is exact; a slot only where a slot is
used. -/
def fcvtOk (c : BitVec 4) (r : BitVec 2) (s : BitVec 3) : Bool :=
  if c == 15#4 then false
  else if c == 12#4 || c == 13#4 || c == 14#4 then true
  else s == 0#3 && (r == 0#2 || [2, 3, 8, 9, 10, 11].contains c.toNat)

/-- A packet that R18 and R271 allow: its header's values, and flits of 64 bytes. -/
def packetOk (p : Packet) : Bool :=
  decide (p.dst < 2 ^ 14) && decide (p.src < 2 ^ 14) && decide (p.vc < 4) && decide (1 ≤ p.flits) && decide (p.flits ≤ 5)
    && decide (p.kind < 8) && p.payload.length == 64 * p.flits

/-- Whether the package has the part that an error's place names (Table 1.1). -/
def siteOk : StorageSite → Bool
  | .hbm sec | .l2Data sec | .syncLine sec => decide (sec < 2 ^ 33)
  | .l2Tag line => decide (line < 2 ^ 31)
  | .readerIndex die | .caddy die _ => decide (die < 4)
  | .l1 core _ | .icache core _ | .pool core _ => decide (core < 288)

/-- Whether an instruction is well formed. -/
def Instr.wf : Instr → Bool
  | .clauseHeader _ a b l _ => flagOk a && flagOk b && l != 0#4
  | .bra .. => true
  | .brp .. => true
  | .brnp .. => true
  | .brz .. => true
  | .brnz .. => true
  | .call .. => true
  | .calli .. => true
  | .ret => true
  | .jmpi .. => true
  | .exit => true
  | .rep .. => true
  | .grd .. => true
  | .wbase .. => true
  | .join .. => true
  | .leave .. => true
  | .waitm .. => true
  | .mset .. => true
  | .mget .. => true
  | .anyVote .. => true
  | .allVote .. => true
  | .ballot .. => true
  | .elect .. => true
  | .matchLanes .. => true
  | .active .. => true
  | .rewarp .. => true
  | .yield => true
  | .brk .. => true
  | .trap .. => true
  | .eret => true
  | .srd .. => true
  | .swr .. => true
  | .icinv => true
  | .cntc .. => true
  | .cnti .. => true
  | .add .. => true
  | .sub .. => true
  | .addi .. => true
  | .mul .. => true
  | .mad .. => true
  | .min .. => true
  | .max .. => true
  | .abs .. => true
  | .neg .. => true
  | .not .. => true
  | .popc .. => true
  | .clz .. => true
  | .ctz .. => true
  | .brev .. => true
  | .bswap .. => true
  | .and .. => true
  | .or .. => true
  | .xor .. => true
  | .andn .. => true
  | .orn .. => true
  | .xnor .. => true
  | .andi .. => true
  | .ori .. => true
  | .xori .. => true
  | .shl .. => true
  | .shr .. => true
  | .sar .. => true
  | .rol .. => true
  | .shli .. => true
  | .shri .. => true
  | .sari .. => true
  | .roli .. => true
  | .bfx .. => true
  | .bfi .. => true
  | .cmp .. => true
  | .cmpi c _ _ _ => decide (c.toNat < 8)
  | .sel .. => true
  | .mov .. => true
  | .pget .. => true
  | .pset .. => true
  | .pand .. => true
  | .por .. => true
  | .pxor .. => true
  | .pnot .. => true
  | .mvi .. => true
  | .mvh1 .. => true
  | .mvh2 .. => true
  | .mvh3 .. => true
  | .lea .. => true
  | .pdot2 .. => true
  | .psrr .. => true
  | .pnarrow _ e _ _ _ => e != 0#2
  | .pwiden _ _ e _ _ => e != 3#2
  | .fadd .. => true
  | .fsub .. => true
  | .fmul .. => true
  | .ffma .. => true
  | .fmin .. => true
  | .fmax .. => true
  | .fabs .. => true
  | .fneg .. => true
  | .fcpys .. => true
  | .fcmp .. => true
  | .fpcmp .. => true
  | .fcvt c _ _ r s => fcvtOk c r s
  | .frnd .. => true
  | .ftoi .. => true
  | .itof .. => true
  | .frcp .. => true
  | .frsq .. => true
  | .fsqrt .. => true
  | .fex2 .. => true
  | .flg2 .. => true
  | .fsin .. => true
  | .fcos .. => true
  | .ftnh .. => true
  | .fscl .. => true
  | .fcls .. => true
  | .shfl .. => true
  | .slide .. => true
  | .bcst .. => true
  | .lscan .. => true
  | .lsscan .. => true
  | .lred .. => true
  | .isect .. => true
  | .ldd .. => true
  | .ldw .. => true
  | .ldh .. => true
  | .ldb .. => true
  | .ldx .. => true
  | .std .. => true
  | .stw .. => true
  | .sth .. => true
  | .stb .. => true
  | .stx .. => true
  | .lds .. => true
  | .sts .. => true
  | .prfl1 .. => true
  | .prfl2 .. => true
  | .dscd .. => true
  | .atom .. => true
  | .atomw .. => true
  | .atred .. => true
  | .cas .. => true
  | .fence s k => s != 3#2 && k != 3#2
  | .waitf .. => true
  | .bars .. => true
  | .bara .. => true
  | .barw .. => true
  | .bari .. => true
  | .gbar => true
  | .tlwait .. => true
  | .tlrd .. => true
  | .stq .. => true
  | .goCopy .. => true
  | .goGather .. => true
  | .txb => true
  | .txc .. => true
  | .txa .. => true
  | .txs .. => true
  | .mma .. => true
  | .accrd _ _ _ _ y => y != 3#2
  | .accwr _ _ _ _ y => y != 3#2
  | .accz .. => true
  | .spawn .. => true
  | .spawnr .. => true
  | .tail .. => true
  | .claim .. => true
  | .fulfil .. => true
  | .relinq .. => true
  | .forget .. => true
  | .edit .. => true
  | .propagate .. => true
  | .trcon => true
  | .trcoff => true
  | .tdig .. => true
  | .tstat .. => true
  | .rbgive .. => true
  | .rbtake .. => true
  | .gangVote _ gang => decide (gang < 16)
  | .regroup .. => true
  | .loadComplete .. => true
  | .atomicComplete .. => true
  | .storeAcknowledge site => decide (site.core < 288)
  | .waitfObservation _ gang lane => decide (gang < 16) && decide (lane < 32)
  | .claimResultDelivery .. => true
  | .txcComplete .. => true
  | .spawnComplete .. => true
  | .spawnrDeparture .. => true
  | .mmaComplete .. => true
  | .accrdComplete .. => true
  | .engineCommandStart .. => true
  | .copyCommandComplete .. => true
  | .gatherCommandComplete .. => true
  | .launchDispatch queue => decide (queue < 64)
  | .teamAdmission .. => true
  | .zeroingComplete .. => true
  | .taskEnd .. => true
  | .reckonerStartTask ctx => decide (ctx < 16)
  | .detGrant .. => true
  | .killDrainComplete .. => true
  | .preemptDrainComplete .. => true
  | .teamRestore .. => true
  | .tableWalkComplete .. => true
  | .faultRecordPost => true
  | .invalComplete .. => true
  | .auditReplay .. => true
  | .auditReplayEnd .. => true
  | .l2Scrub sector _ => decide (sector < 2 ^ 33)
  | .storageError site _ => siteOk site
  | .ctxset .. => true
  | .qcfg .. => true
  | .qdestroy .. => true
  | .inval .. => true
  | .resolve .. => true
  | .aperture .. => true
  | .trrel .. => true
  | .budget .. => true
  | .backing .. => true
  | .preempt .. => true
  | .fqset .. => true
  | .mcqset .. => true
  | .resume .. => true
  | .audit .. => true
  | .qtailWrite .. => true
  | .qstatWrite .. => true
  | .edwinWrite .. => true
  | .mcheadWrite .. => true
  | .registerWrite .. => true
  | .hostMemoryWrite address data => decide (0 < data.length) && decide (data.length ≤ 256) && decide (address + data.length ≤ 2 ^ 39)
  | .hostMemoryRead address size => decide (0 < size) && decide (address + size ≤ 2 ^ 39)
  | .packetForward port packet => decide (port < 14) && packetOk packet
  | .taskPacketArrival packet => packetOk packet && packet.kind == 3
  | .remoteRequestArrival packet => packetOk packet && decide (packet.kind < 3)
  | .responseArrival packet => packetOk packet && packet.kind == 4
  | .acknowledgementArrival packet => packetOk packet && packet.kind == 5
  | .negativeAckArrival packet => packetOk packet && packet.kind == 6
  | .linkFlitError port _ => decide (port < 12)
  | .linkErrorWindow port _ => decide (port < 12)
  | .linkPortDown port => decide (port < 12)
  | .islandRailGood => true
  | .islandRailLost => true
  | .islandOnlyReset => true
  | .computeOnlyReset => true
  | .computePowerOff => true
  | .regulatorTrip .. => true
  | .islandDrainComplete => true
  | .islandReturnFull => true
  | .islandUnavailable => true
  | .rootOfTrustCheck .. => true
  | .islandFirmwareLoad .. => true
  | .linkTraining .. => true
  | .bootImageLoad .. => true
  | .bDieRelease .. => true
  | .computeDieRelease .. => true
  | .attestationRequest .. => true
  | .bootResumeCommand => true
  | .recoveryImage .. => true
  | .portRestoreCommand port => decide (port < 12)
  | .coreUnretireCommand core => decide (core < 288)
  | .coreErrorWindow core _ _ => decide (core < 288)
  | .linkUp port => decide (port < 12)

end Sys2Proof
end

