-- ==== Sys2Proof/Certificates/Slice0/Obligations.lean ====
section
/-! DEFINITION. The statements for the provers. -/

open Sys2Proof Sys2Proof.Machine

/-! ## Integer words -/

/-- R167: ADD, SUB, MUL, MAD, MIN and MAX, element by element; ADD and SUB with .sat clamp and set SATF; nothing else
changes. -/
def Obligations.IntegerArithmetic : Prop :=
  ∀ (s : State) (i : Issue) (u f : BitVec 1) (e : BitVec 2) (d a b : BitVec 7), s.issue = some i → i.writes d →
    (i.reads [a, b] →
      let x := fun l j => number u (element e (i.val l a) j)
      let y := fun l j => number u (element e (i.val l b) j)
      let narrow := fun (r : Int) => if f = 1#1 then clampTo u (width e) r else r
      let clamped := fun (r : Nat → Nat → Int) l =>
        decide (f = 1#1) && (List.range (elementCount e)).any fun j => clampTo u (width e) (r l j) != r l j
      (∃ (t : State) (v : Nat → W64), exec (.add u f e d a b) s = .next t
        ∧ OnlyRegs s t i (fun l r => { r.set d (v l) with satf := r.satf || clamped (fun l j => x l j + y l j) l })
        ∧ ∀ l ∈ i.active, ∀ j < elementCount e, element e (v l) j = BitVec.ofInt _ (narrow (x l j + y l j)))
      ∧ (∃ (t : State) (v : Nat → W64), exec (.sub u f e d a b) s = .next t
        ∧ OnlyRegs s t i (fun l r => { r.set d (v l) with satf := r.satf || clamped (fun l j => x l j - y l j) l })
        ∧ ∀ l ∈ i.active, ∀ j < elementCount e, element e (v l) j = BitVec.ofInt _ (narrow (x l j - y l j)))
      ∧ (∃ (t : State) (v : Nat → W64), exec (.mul u f e d a b) s = .next t ∧ OnlyRegs s t i (fun l r => r.set d (v l))
        ∧ ∀ l ∈ i.active, ∀ j < elementCount e,
          element e (v l) j = BitVec.ofInt _ (if f = 1#1 then (x l j * y l j) / 2 ^ width e else x l j * y l j))
      ∧ (∃ (t : State) (v : Nat → W64), exec (.min u e d a b) s = .next t ∧ OnlyRegs s t i (fun l r => r.set d (v l))
        ∧ ∀ l ∈ i.active, ∀ j < elementCount e, number u (element e (v l) j) = min (x l j) (y l j))
      ∧ (∃ (t : State) (v : Nat → W64), exec (.max u e d a b) s = .next t ∧ OnlyRegs s t i (fun l r => r.set d (v l))
        ∧ ∀ l ∈ i.active, ∀ j < elementCount e, number u (element e (v l) j) = max (x l j) (y l j)))
    ∧ (i.reads [a, b, d] →
      ∃ (t : State) (v : Nat → W64), exec (.mad e d a b) s = .next t ∧ OnlyRegs s t i (fun l r => r.set d (v l))
        ∧ ∀ l ∈ i.active, ∀ j < elementCount e,
          element e (v l) j = element e (i.val l d) j + element e (i.val l a) j * element e (i.val l b) j)

/-- R171, R172, R175 and R176: the words that act on all 64 bits of a register; nothing else changes. -/
def Says.WholeRegisterWords : Prop :=
  ∀ (s : State) (i : Issue) (d a b : BitVec 7), s.issue = some i → i.writes d →
    let gives := fun (w : Instr) (v : Nat → W64) =>
      ∃ t, exec w s = .next t ∧ OnlyRegs s t i (fun l r => r.set d (v l))
    let x := fun l => i.val l a
    let y := fun l => i.val l b
    (i.reads [a] → ∀ n : BitVec 6,
      gives (.shli d a n) (fun l => x l <<< n.toNat)
      ∧ gives (.shri d a n) (fun l => x l >>> n.toNat)
      ∧ gives (.sari d a n) (fun l => (x l).sshiftRight n.toNat)
      ∧ gives (.roli d a n) (fun l => (x l).rotateLeft n.toNat)
      ∧ gives (.mov d a) x)
    ∧ (i.reads [a, b] → ∀ n : BitVec 1,
      gives (.bfx n d a b) (fun l =>
          let pos := ((y l).extractLsb' 0 6).toNat
          let f := (x l).extractLsb' pos (min ((y l).extractLsb' 6 6).toNat (64 - pos))
          if n = 1#1 then f.signExtend 64 else f.setWidth 64))
    ∧ (i.reads [a, b, d] → gives (.bfi d a b) (fun l =>
          let pos := ((y l).extractLsb' 0 6).toNat
          let len := min ((y l).extractLsb' 6 6).toNat (64 - pos)
          BitVec.ofFnLE fun k =>
            if pos ≤ k.val ∧ k.val < pos + len then (x l).getLsbD (k.val - pos) else (i.val l d).getLsbD k.val))
    ∧ (∀ k : BitVec 18, gives (.mvi d k) (fun _ => k.signExtend 64)
        ∧ gives (.pget d) (fun l => (i.thread l).p.setWidth 64))
    ∧ (i.reads [d] → ∀ (k : BitVec 18) (m : BitVec 10),
      gives (.mvh1 d k) (fun l => (i.val l d).extractLsb' 36 28 ++ k ++ (i.val l d).extractLsb' 0 18)
      ∧ gives (.mvh2 d k) (fun l => (i.val l d).extractLsb' 54 10 ++ k ++ (i.val l d).extractLsb' 0 36)
      ∧ gives (.mvh3 d m) (fun l => m ++ (i.val l d).extractLsb' 0 54))

/-- A word that writes register d of each active thread, and nothing else. -/
def Says.givesAll (s : State) (i : Issue) (d : BitVec 7) (w : Instr) (v : Nat → W64) : Prop :=
  ∃ t, exec w s = .next t ∧ OnlyRegs s t i (fun l r => r.set d (v l))

/-- R168: the encodings and the sums of ADDI and LEA; neither sets SATF, and nothing else changes. -/
def Obligations.AddressArithmetic : Prop :=
  (∀ (d a b : BitVec 7) (k : BitVec 11) (f : BitVec 4), decode (0x14#7 ++ d ++ a ++ k) = .ok (.addi d a k)
    ∧ (f.toNat < 4 → decode (0x2A#7 ++ f ++ d ++ a ++ b) = .ok (.lea (f.setWidth 2) d a b))
    ∧ (4 ≤ f.toNat → ∃ e, decode (0x2A#7 ++ f ++ d ++ a ++ b) = .error e))
  ∧ ∀ (s : State) (i : Issue) (d a b : BitVec 7), s.issue = some i → i.writes d →
    (i.reads [a] → ∀ k : BitVec 11, Says.givesAll s i d (.addi d a k) fun l => BitVec.ofInt 64 ((i.val l a).toNat + k.toInt))
    ∧ (i.reads [a, b] → ∀ k : BitVec 2, Says.givesAll s i d (.lea k d a b) fun l =>
        BitVec.ofNat 64 ((i.val l a).toNat + (i.val l b).toNat * (if k = 0#2 then 1 else if k = 1#2 then 2 else if k = 2#2 then 4 else 8)))

/-- R170: the encodings and the results of the nine logic words, on all 64 bits; fn values 6 to 15 are no instruction. -/
def Obligations.LogicWords : Prop :=
  (∀ (d a b : BitVec 7) (k : BitVec 11),
    let word := fun f : BitVec 4 => decode (0x1A#7 ++ f ++ d ++ a ++ b)
    word 0#4 = .ok (.and d a b) ∧ word 1#4 = .ok (.or d a b) ∧ word 2#4 = .ok (.xor d a b) ∧ word 3#4 = .ok (.andn d a b)
    ∧ word 4#4 = .ok (.orn d a b) ∧ word 5#4 = .ok (.xnor d a b) ∧ (∀ f : BitVec 4, 6 ≤ f.toNat → ∃ e, word f = .error e)
    ∧ decode (0x1B#7 ++ d ++ a ++ k) = .ok (.andi d a k) ∧ decode (0x1C#7 ++ d ++ a ++ k) = .ok (.ori d a k)
    ∧ decode (0x1D#7 ++ d ++ a ++ k) = .ok (.xori d a k))
  ∧ ∀ (s : State) (i : Issue) (d a b : BitVec 7), s.issue = some i → i.writes d →
    let bits := fun (w : Instr) (y : Nat → W64) (f : Bool → Bool → Bool) => Says.givesAll s i d w fun l =>
      BitVec.ofFnLE fun j : Fin 64 => f ((i.val l a).getLsbD j) ((y l).getLsbD j)
    (i.reads [a, b] → let y := fun l => i.val l b
      bits (.and d a b) y (fun p q => p && q) ∧ bits (.or d a b) y (fun p q => p || q) ∧ bits (.xor d a b) y xor
      ∧ bits (.andn d a b) y (fun p q => p && !q) ∧ bits (.orn d a b) y (fun p q => p || !q)
      ∧ bits (.xnor d a b) y (fun p q => !xor p q))
    ∧ (i.reads [a] → ∀ k : BitVec 11, let y := fun _ => k.signExtend 64
      bits (.andi d a k) y (fun p q => p && q) ∧ bits (.ori d a k) y (fun p q => p || q) ∧ bits (.xori d a k) y xor)

/-- R174: the encoding of SEL, and its result on all 64 bits. -/
def Obligations.SelectWord : Prop :=
  (∀ (n : BitVec 1) (p : BitVec 3) (d a b : BitVec 7), decode (0x24#7 ++ n ++ p ++ d ++ a ++ b) = .ok (.sel n p d a b))
  ∧ ∀ (s : State) (i : Issue) (n : BitVec 1) (p : BitVec 3) (d a b : BitVec 7), s.issue = some i → i.writes d → i.reads [a, b] →
    Says.givesAll s i d (.sel n p d a b) fun l =>
      if xor ((i.thread l).p.getLsbD p.toNat) (n.getLsbD 0) = true then i.val l a else i.val l b

/-- R169 and R171: the unary family and the register shifts, element by element; nothing else changes. -/
def Says.UnaryAndShiftWords : Prop :=
  ∀ (s : State) (i : Issue) (e : BitVec 2) (d a b : BitVec 7), s.issue = some i → i.writes d →
    let gives := fun (w : Instr) (f : Nat → Nat → BitVec (width e)) =>
      ∃ (t : State) (v : Nat → W64), exec w s = .next t ∧ OnlyRegs s t i (fun l r => r.set d (v l))
        ∧ ∀ l ∈ i.active, ∀ j < elementCount e, element e (v l) j = f l j
    let x := fun l j => element e (i.val l a) j
    let n := fun l j => (element e (i.val l b) j).toNat
    (i.reads [a] →
      gives (.abs d a e) (fun l j => (x l j).abs)
      ∧ gives (.neg d a e) (fun l j => -x l j)
      ∧ gives (.not d a e) (fun l j => ~~~x l j)
      ∧ gives (.popc d a e) (fun l j => (x l j).cpop)
      ∧ gives (.clz d a e) (fun l j => (x l j).clz)
      ∧ gives (.ctz d a e) (fun l j => (x l j).ctz)
      ∧ gives (.brev d a e) (fun l j => (x l j).reverse)
      ∧ gives (.bswap d a e) (fun l j => BitVec.ofFnLE fun k =>
          (x l j).getLsbD (8 * (width e / 8 - 1 - k.val / 8) + k.val % 8)))
    ∧ (i.reads [a, b] →
      gives (.shl e d a b) (fun l j => x l j <<< n l j)
      ∧ gives (.shr e d a b) (fun l j => x l j >>> n l j)
      ∧ gives (.sar e d a b) (fun l j => (x l j).sshiftRight (n l j))
      ∧ gives (.rol e d a b) (fun l j => (x l j).rotateLeft (n l j)))

/-- R173 and R175: compares and predicate operations set one predicate, PSET all eight; nothing else changes. -/
def Says.PredicateWords : Prop :=
  ∀ (s : State) (i : Issue) (a b : BitVec 7), s.issue = some i →
    let sets := fun (w : Instr) (p : Nat) (f : Nat → Bool) =>
      ∃ t, exec w s = .next t ∧ OnlyRegs s t i (fun l r => r.setPred p (f l))
    let holds := fun (c : Nat) {n : Nat} (x y : BitVec n) =>
      match c with
      | 0 => x == y
      | 1 => x != y
      | 2 => x.slt y
      | 3 => x.sle y
      | 4 => x.ult y
      | 5 => x.ule y
      | 6 => x &&& y != 0#n
      | _ => x &&& y == 0#n
    (i.reads [a, b] → ∀ (c : BitVec 3) (p : BitVec 7), p.toNat < 8 →
      sets (.cmp 0#1 c p a b) p.toNat (fun l => holds c.toNat (i.val l a) (i.val l b))
      ∧ sets (.cmp 1#1 c p a b) p.toNat (fun l =>
          holds c.toNat ((i.val l a).setWidth 32) ((i.val l b).setWidth 32)))
    ∧ (i.reads [a] → ∀ (c : BitVec 4) (p : BitVec 3) (k : BitVec 11), c.toNat < 8 →
      sets (.cmpi c p a k) p.toNat (fun l => holds c.toNat (i.val l a) (k.signExtend 64)))
    ∧ (i.reads [a] → ∃ t, exec (.pset a) s = .next t
        ∧ OnlyRegs s t i (fun l r => { r with p := (i.val l a).setWidth 8 }))
    ∧ ∀ d x y : BitVec 7, d.toNat < 8 → x.toNat < 8 → y.toNat < 8 →
      let p := fun l (k : BitVec 7) => (i.thread l).p.getLsbD k.toNat
      sets (.pand d x y) d.toNat (fun l => p l x && p l y)
      ∧ sets (.por d x y) d.toNat (fun l => p l x || p l y)
      ∧ sets (.pxor d x y) d.toNat (fun l => xor (p l x) (p l y))
      ∧ sets (.pnot d x) d.toNat (fun l => !p l x)

/-- R177 to R180: the packed operations; nothing else changes. -/
def Says.PackedWords : Prop :=
  ∀ (s : State) (i : Issue) (u h : BitVec 1) (e : BitVec 2) (d a b : BitVec 7), s.issue = some i → i.writes d →
    (i.reads [a, b, d] →
      let half := fun (f : BitVec 7) l k => number u (element 1#2 (i.val l f) k)
      let sum := fun l j => number u (element 2#2 (i.val l d) j)
        + half a l (2 * j) * half b l (2 * j) + half a l (2 * j + 1) * half b l (2 * j + 1)
      ∃ (t : State) (v : Nat → W64), exec (.pdot2 u d a b) s = .next t
        ∧ OnlyRegs s t i (fun l r => { r.set d (v l) with
            satf := r.satf || (List.range 2).any fun j => clampTo u 32 (sum l j) != sum l j })
        ∧ ∀ l ∈ i.active, ∀ j < 2, element 2#2 (v l) j = BitVec.ofInt _ (clampTo u 32 (sum l j)))
    ∧ (i.reads [a, b] →
      (∃ (t : State) (v : Nat → W64), exec (.psrr e d a b) s = .next t ∧ OnlyRegs s t i (fun l r => r.set d (v l))
        ∧ ∀ l ∈ i.active, ∀ j < elementCount e,
          let n := min ((i.val l b).extractLsb' 0 6).toNat (width e)
          let x := (element e (i.val l a) j).toInt
          element e (v l) j = BitVec.ofInt _ (if n = 0 then x else (x + 2 ^ (n - 1)) / 2 ^ n))
      ∧ (e ≠ 0#2 →
        let x := fun l j => (element e (i.val l a) j).toInt
        let y := fun l j => (element e (i.val l b) j).toInt
        let w := width e / 2
        ∃ (t : State) (v : Nat → W64), exec (.pnarrow u e d a b) s = .next t
          ∧ OnlyRegs s t i (fun l r => { r.set d (v l) with
              satf := r.satf || (List.range (elementCount e)).any fun j =>
                clampTo u w (x l j) != x l j || clampTo u w (y l j) != y l j })
          ∧ ∀ l ∈ i.active, ∀ j < elementCount e,
            (v l).extractLsb' (w * j) w = BitVec.ofInt _ (clampTo u w (x l j))
            ∧ (v l).extractLsb' (32 + w * j) w = BitVec.ofInt _ (clampTo u w (y l j))))
    ∧ (i.reads [a] → e ≠ 3#2 → ∃ (t : State) (v : Nat → W64), exec (.pwiden u h e d a) s = .next t ∧ OnlyRegs s t i (fun l r => r.set d (v l))
        ∧ ∀ l ∈ i.active, ∀ j < 32 / width e,
          let x := element e (i.val l a) ((if h = 1#1 then 32 / width e else 0) + j)
          (v l).extractLsb' (2 * width e * j) (2 * width e)
            = if u = 1#1 then x.signExtend _ else x.setWidth _)

/-! ## Floating-point words -/

/-- R182, R191 to R193, R196 and R197: each element is the operation of its format on the decoded elements, rounded once
(RoundTo of R80); the flags of all elements are ORed into FPFLAGS; nothing else changes. That ITOF under RTZ and RDN sets
of for every value above the greatest finite one is read from R193's one example (DEDUCED, log 31). -/
def Obligations.FloatArithmetic : Prop :=
  ∀ (s : State) (i : Issue) (r t : BitVec 2) (w : BitVec 1) (d a b : BitVec 7), s.issue = some i → i.writes d →
    let T := typeFmt t
    let n := 64 / T.width
    let gives := fun (word : Instr) (g : Nat → Nat → FpResult) =>
      ∃ (t' : State) (v : Nat → W64), exec word s = .next t'
        ∧ OnlyRegs s t' i (fun l x => { x.set d (v l) with fp := x.fp ||| flagsUpTo n fun j => (g l j).flags })
        ∧ ∀ l ∈ i.active, ∀ j < n, floatElement T (v l) j = (g l j).bits
    let e := fun f l j => floatElement T (i.val l f) j
    let x := fun l j => T.decode (e a l j)
    let y := fun l j => T.decode (e b l j)
    (i.reads [a, b] →
      gives (.fadd r t d a b) (fun l j => T.add (rndOf r) (x l j) (y l j))
      ∧ gives (.fsub r t d a b) (fun l j => T.add (rndOf r) (x l j) (y l j).negate)
      ∧ gives (.fmul r t d a b) (fun l j => T.mul (rndOf r) (x l j) (y l j))
      ∧ gives (.fscl t d a b) (fun l j => T.scale (x l j) (BitVec.ofNat T.width (e b l j)).toInt))
    ∧ (i.reads [a, b, d] → gives (.ffma r t d a b) (fun l j =>
        T.fma (rndOf r) (x l j) (y l j) (T.decode (e d l j))))
    ∧ (i.reads [a] →
      gives (.frnd r t d a) (fun l j => T.integral (rndOf r) (x l j))
      ∧ gives (.ftoi r t d a w) (fun l j =>
          let q := toInteger (w != 1#1) T.width (rndOf r) (x l j)
          { bits := (BitVec.ofInt T.width q.1).toNat, flags := q.2, sat := false })
      ∧ gives (.itof r t d a w) (fun l j =>
          let q := number w (BitVec.ofNat T.width (e a l j))
          let z := T.ofFp (Fp.ofInt q 0) (rndOf r) false
          { z with flags := z.flags ||| flagIf ((rndOf r == .rtz || rndOf r == .rdn) && (T.decode T.maxBits).lt (Fp.ofInt q 0)) flagOf })
      ∧ gives (.fcls t d a) (fun l j => { bits := 2 ^ T.classify (e a l j), flags := 0#5, sat := false }))

/-- R184 to R186: minimum, maximum, sign and compare; a selected value keeps its bits; nothing else changes. -/
def Says.FloatSelectAndCompare : Prop :=
  ∀ (s : State) (i : Issue) (t : BitVec 2) (nan : BitVec 1) (a b : BitVec 7), s.issue = some i →
    let T := typeFmt t
    let n := 64 / T.width
    let e := fun f l j => floatElement T (i.val l f) j
    let x := fun l j => T.decode (e a l j)
    let y := fun l j => T.decode (e b l j)
    let signalling := fun l j => flagIf ((x l j).isSignalling || (y l j).isSignalling) flagNv
    let pick := fun (second : Nat → Nat → Bool) l j =>
      if (x l j).isNan ∧ ((y l j).isNan ∨ nan = 1#1) ∨ (y l j).isNan ∧ nan = 1#1 then T.nanBits
      else if (x l j).isNan then e b l j
      else if (y l j).isNan then e a l j
      else if second l j then e b l j else e a l j
    let withSign := fun l j (neg : Bool) =>
      if (x l j).isNan then T.nanBits else (if neg then 2 ^ (T.width - 1) else 0) + e a l j % 2 ^ (T.width - 1)
    (∀ d, i.writes d →
      let gives := fun (word : Instr) (g : Nat → Nat → Nat) (fl : Nat → Nat → Flags) =>
        ∃ (t' : State) (v : Nat → W64), exec word s = .next t'
          ∧ OnlyRegs s t' i (fun l x => { x.set d (v l) with fp := x.fp ||| flagsUpTo n fun j => fl l j })
          ∧ ∀ l ∈ i.active, ∀ j < n, floatElement T (v l) j = g l j
      let none := fun _ _ => 0#5
      (i.reads [a, b] →
        gives (.fmin nan t d a b) (pick fun l j => (y l j).ltSigned (x l j)) signalling
        ∧ gives (.fmax nan t d a b) (pick fun l j => (x l j).ltSigned (y l j)) signalling
        ∧ gives (.fcpys t d a b) (fun l j => withSign l j ((e b l j).testBit (T.width - 1))) none)
      ∧ (i.reads [a] →
        gives (.fabs t d a) (fun l j => withSign l j false) none
        ∧ gives (.fneg t d a) (fun l j => withSign l j (!(e a l j).testBit (T.width - 1))) none))
    ∧ (i.reads [a, b] → ∀ (c : BitVec 2) (p : BitVec 7), p.toNat < 8 →
      let anyNan := fun l => (x l 0).isNan || (y l 0).isNan
      let result := fun l =>
        match c with
        | 0#2 => !anyNan l && !(x l 0).lt (y l 0) && !(y l 0).lt (x l 0)
        | 1#2 => !anyNan l && (x l 0).lt (y l 0)
        | 2#2 => !anyNan l && !(y l 0).lt (x l 0)
        | _ => anyNan l
      let flag := fun l => if c = 1#2 ∨ c = 2#2 then flagIf (anyNan l) flagNv else signalling l 0
      ∃ t', exec (.fcmp c t p a b) s = .next t'
        ∧ OnlyRegs s t' i (fun l x => { x.setPred p.toNat (result l) with fp := x.fp ||| flag l }))

/-- R189 and R194: FCVT and the special functions write their values, and OR their flags into FPFLAGS and SATF; nothing
else changes. -/
def Says.ConversionAndFunctionWords : Prop :=
  ∀ (s : State) (i : Issue) (d a : BitVec 7), s.issue = some i → i.writes d → i.reads [a] →
    (∀ (c : BitVec 4) (r : BitVec 2) (k : BitVec 3), Instr.wf (.fcvt c d a r k) = true →
      (c = 14#4 → slotWidth (field (i.launch.slot k.toNat).toNat 0 4) < 32) →
      let v := fun l => fcvtValue c.toNat (i.launch.slot k.toNat) (rndOf r) (i.val l d) (i.val l a)
      ∃ t, exec (.fcvt c d a r k) s = .next t
        ∧ OnlyRegs s t i (fun l x => { x.set d (v l).1 with fp := x.fp ||| (v l).2.1, satf := x.satf || (v l).2.2 }))
    ∧ (let gives := fun (word : Instr) (fn : Nat) (T : FloatFmt) =>
        let g := fun l j => specialOf fn T (floatElement T (i.val l a) j)
        ∃ (t : State) (v : Nat → W64), exec word s = .next t
          ∧ OnlyRegs s t i (fun l x => { x.set d (v l) with fp := x.fp ||| flagsUpTo (64 / T.width) fun j => (g l j).flags })
          ∧ ∀ l ∈ i.active, ∀ j < 64 / T.width, floatElement T (v l) j = (g l j).bits % 2 ^ T.width
      (∀ f : BitVec 1, let T := if f = 1#1 then f64 else f32
        gives (.frcp f d a) 0 T ∧ gives (.frsq f d a) 1 T ∧ gives (.fsqrt f d a) 2 T)
      ∧ gives (.fex2 d a) 3 f32 ∧ gives (.flg2 d a) 4 f32 ∧ gives (.fsin d a) 5 f32 ∧ gives (.fcos d a) 6 f32
      ∧ gives (.ftnh d a) 7 f32)

/-- R183 and R68, on the operations themselves: NaN operands, invalid operations, infinities and signed zeros. -/
def Says.FloatSpecialCases : Prop :=
  ∀ (t : BitVec 2) (r : Rnd) (x y z : Fp) (p q : Bool) (m : Nat) (e e' : Int),
    let T := typeFmt t
    let invalid : FpResult := { bits := T.nanBits, flags := flagNv, sat := false }
    let exact := fun b => ({ bits := b, flags := 0#5, sat := false } : FpResult)
    (∀ g, T.add r (.nan g) y = { bits := T.nanBits, flags := flagIf (g || y.isSignalling) flagNv, sat := false })
    ∧ (∀ g, T.mul r x (.nan g) = { bits := T.nanBits, flags := flagIf (x.isSignalling || g) flagNv, sat := false })
    ∧ T.add r (.inf p) (.inf (!p)) = invalid
    ∧ T.add r (.inf p) (.inf p) = exact (T.infBits p)
    ∧ T.add r (.inf p) (.fin q m e) = exact (T.infBits p)
    ∧ T.mul r (.fin p 0 e) (.inf q) = invalid
    ∧ T.mul r (.inf p) (.inf q) = exact (T.infBits (p != q))
    ∧ T.fma r (.fin p 0 e) (.inf q) z = invalid
    ∧ T.fma r (.inf p) (.inf p) (.inf true) = invalid
    ∧ T.add r (.fin p 0 e) (.fin p 0 e') = exact (T.signBit p)
    ∧ T.add r (.fin p m e) (.fin (!p) m e) = exact (T.signBit (r == .rdn))
    ∧ T.mul r (.fin p 0 e) (.fin q m e') = exact (T.signBit (p != q))

/-- R74 and R80: rounding a value of the format back to the format gives its bits and raises no flag, in every mode; a
NaN gives the canonical NaN of Table 3.12, with nv when it is signalling, whether or not the target saturates. -/
def Says.RoundingKeepsValues : Prop :=
  (∀ (T : FloatFmt) (r : Rnd) (b : Nat), T ∈ [f64, f32, f16, bf16, e4m3, e5m2] → b < 2 ^ T.width →
    (T.decode b).isNan = false → T.ofFp (T.decode b) r false = { bits := b, flags := 0#5, sat := false })
  ∧ ∀ (r : Rnd) (sat g : Bool), ∀ x ∈ [(f64, 0x7FF8000000000000), (f32, 0x7FC00000), (f16, 0x7E00), (bf16, 0x7FC0), (e4m3, 0x7F),
      (e5m2, 0x7E)], x.1.ofFp (.nan g) r sat = { bits := x.2, flags := flagIf g flagNv, sat := false }

/-- R188 and R189: the elements that each conversion of Table 8.3 writes, those that it keeps, the flags of the widening
ones, and how .tosl and .fromsl place the elements of a slot's format. -/
def Says.ConversionValues : Prop :=
  (∀ (slot d a : W64) (r : Rnd),
    let v := fun c => (fcvtValue c slot r d a).1
    let el := fun (T : FloatFmt) (x : W64) j => floatElement T x j
    let cvt := fun (S T : FloatFmt) j => (T.ofFp (S.decode (el S a j)) r false).bits
    let code := slot.toNat % 16
    let w := slotWidth code
    let n := min 2 (64 / w)
    let f := fun (x : Fp) => (f32.ofFp x r (slot.getLsbD 8)).bits
    (∀ j < 2, el f64 (v j) 0 = cvt f32 f64 j
      ∧ el f32 (v 4) j = cvt f16 f32 j ∧ el f32 (v 5) j = cvt f16 f32 (2 + j)
      ∧ el f32 (v 6) j = cvt bf16 f32 j ∧ el f32 (v 7) j = cvt bf16 f32 (2 + j)
      ∧ el f16 (v 8) j = cvt f32 f16 j ∧ el f16 (v 8) (2 + j) = el f16 d (2 + j)
      ∧ el f16 (v 9) (2 + j) = cvt f32 f16 j ∧ el f16 (v 9) j = el f16 d j
      ∧ el bf16 (v 10) j = cvt f32 bf16 j ∧ el bf16 (v 10) (2 + j) = el bf16 d (2 + j)
      ∧ el bf16 (v 11) (2 + j) = cvt f32 bf16 j ∧ el bf16 (v 11) j = el bf16 d j)
    ∧ (el f32 (v 2) 0 = cvt f64 f32 0 ∧ el f32 (v 2) 1 = el f32 d 1 ∧ el f32 (v 3) 1 = cvt f64 f32 0 ∧ el f32 (v 3) 0 = el f32 d 0)
    ∧ (∀ j < 2, (fcvtValue j slot r d a).2.1 = flagIf (f32.decode (el f32 a j)).isSignalling flagNv)
    ∧ (∀ k < 4, let S := if k < 2 then f16 else bf16
        (fcvtValue (4 + k) slot r d a).2.1
          = flagIf ((List.range 2).any fun j => (S.decode (el S a (2 * (k % 2) + j))).isSignalling) flagNv)
    ∧ (∀ j < n, (v 12).extractLsb' (64 - n * w + w * j) w
        = BitVec.ofNat w (slotRound code (f32.decode (el f32 a j)) r (slot.getLsbD 8)).bits)
    ∧ (∀ k < 64 - n * w, (v 12).getLsbD k = d.getLsbD (k + n * w))
    ∧ (w = 64 → el f32 (v 13) 0 = f (slotDecode code a.toNat) ∧ el f32 (v 13) 1 = 0)
    ∧ ∀ k < 2, w * (2 * k + 2) ≤ 64 → ∀ j < 2,
        el f32 (v (13 + k)) j = f (slotDecode code (a.extractLsb' (w * (2 * k + j)) w).toNat))
  ∧ (List.range 11).map slotWidth = [64, 32, 16, 16, 8, 8, 8, 16, 32, 8, 8]
  ∧ (∀ b < 2 ^ 32, slotDecode 5 b = Fp.ofInt (BitVec.ofNat 8 b).toInt 0 ∧ slotDecode 6 b = Fp.ofInt (BitVec.ofNat 8 b).toNat 0
      ∧ slotDecode 7 b = Fp.ofInt (BitVec.ofNat 16 b).toInt 0 ∧ slotDecode 8 b = Fp.ofInt (BitVec.ofNat 32 b).toInt 0)
  ∧ fcvtValue 12 0x109#64 .rne 0#64 0x43FA00003E99999A#64 = (0x7E2A000000000000#64, flagOf ||| flagNx, true)
  ∧ fcvtValue 12 0x9#64 .rne 0#64 0x43FA00003E99999A#64 = (0x7F2A000000000000#64, flagOf ||| flagNx, false)

/-- R194 and R195: the special values of Table 8.6 with their flags, and the inputs that it lists as exact. -/
def Says.FunctionValues : Prop :=
  ∀ (T : FloatFmt) (fn b : Nat), T ∈ [f64, f32] → fn < 8 → (3 ≤ fn → T = f32) → b < 2 ^ T.width →
    let z := specialOf fn T b
    let x := T.decode b
    let one := T.bias * 2 ^ T.fracBits
    let minus := 2 ^ (T.width - 1)
    let inf := T.infBits false
    let gives := fun (v : Nat) (fl : Flags) => z = { bits := v, flags := fl, sat := false }
    let row := fun (l : List (Nat × Flags)) => gives (l.getD fn (0, 0#5)).1 (l.getD fn (0, 0#5)).2
    let bad := (T.nanBits, flagNv)
    let is := fun (c : Nat) (n : Bool) (q : ℚ → Prop) =>
      c < 2 ^ T.width ∧ (∃ m e, T.decode c = .fin n m e) ∧ q (Fp.real (T.decode c))
    (∀ g, x = .nan g → gives T.nanBits (flagIf g flagNv))
    ∧ (x = .inf true → row [(minus, 0), bad, bad, (0, 0), bad, bad, bad, (minus + one, 0)])
    ∧ (x = .inf false → row [(0, 0), (0, 0), (inf, 0), (inf, 0), (inf, 0), bad, bad, (one, 0)])
    ∧ (∀ e, x = .fin true 0 e →
        row [(minus + inf, flagDz), (minus + inf, flagDz), (minus, 0), (one, 0), (minus + inf, flagDz), (minus, 0), (one, 0), (minus, 0)])
    ∧ (∀ e, x = .fin false 0 e →
        row [(inf, flagDz), (inf, flagDz), (0, 0), (one, 0), (minus + inf, flagDz), (0, 0), (one, 0), (0, 0)])
    ∧ ∀ n m e, x = .fin n m e → m ≠ 0 →
      let v := x.real
      (n = true → fn ∈ [1, 2, 4] → gives T.nanBits flagNv)
      ∧ (∀ c, fn = 0 → is c n (fun y => v * y = 1) → gives c 0)
      ∧ (∀ c, fn = 1 → is c false (fun y => v * y * y = 1) → gives c 0)
      ∧ (∀ c, fn = 2 → is c false (fun y => y * y = v) → gives c 0)
      ∧ (∀ c, ∀ k : Int, fn = 3 → v = k → is c false (fun y => y = 2 ^ k) → gives c 0)
      ∧ (∀ c, ∀ k : Int, fn = 4 → v = 2 ^ k → is c (decide (k < 0)) (fun y => y = k) → gives c 0)
      ∧ (fn = 3 → 128 ≤ v → gives inf (flagOf ||| flagNx))
      ∧ (fn = 3 → v < -150 → gives 0 (flagUf ||| flagNx))
      ∧ (fn = 7 → 91 / 10 ≤ |v| → gives ((if n then minus else 0) + one) flagNx)

/-- R77 and R194: FRCP and FSQRT round the exact value once to nearest: the delivered value lies within half a unit of its
last place of it, nx is set exactly when the two differ, and FRCP overflows where 1/x is above the greatest finite value;
FRSQ delivers a value within one such unit. -/
def Says.ReciprocalAndRoots : Prop :=
  ∀ (T : FloatFmt) (b : Nat) (n : Bool) (m : Nat) (e : Int), T ∈ [f64, f32] → b < 2 ^ T.width → T.decode b = .fin n m e → m ≠ 0 →
    let v := Fp.real (T.decode b)
    let near := fun (z : FpResult) (s : Bool) (ok : ℚ → ℚ → Prop) (exact : ℚ → Prop) =>
      ∃ m' e', T.decode z.bits = .fin s m' e' ∧ ok (Fp.real (T.decode z.bits)) (2 ^ e')
        ∧ (z.flags.getLsbD 4 = true ↔ ¬exact (Fp.real (T.decode z.bits)))
    let rcp := specialOf 0 T b
    (Fp.real (T.decode T.maxBits) < |1 / v| → rcp = { bits := T.infBits n, flags := flagOf ||| flagNx, sat := false })
    ∧ (|1 / v| ≤ Fp.real (T.decode T.maxBits) → near rcp n (fun y u => |y - 1 / v| ≤ u / 2) (fun y => y = 1 / v))
    ∧ (n = false → near (specialOf 2 T b) false (fun y u => 0 ≤ y ∧ (y - u / 2) ^ 2 ≤ v ∧ v ≤ (y + u / 2) ^ 2) (fun y => y * y = v)
        ∧ near (specialOf 1 T b) false (fun y u => 0 ≤ y ∧ (y - u) ^ 2 * v ≤ 1 ∧ 1 ≤ (y + u) ^ 2 * v) (fun y => y * y * v = 1))

/-! ## Cross-lane words -/

/-- R198 to R201: SHFL, BCST and SLIDE move elements among the active threads; nothing else changes. -/
def Says.LaneMoves : Prop :=
  ∀ (s : State) (i : Issue) (e : BitVec 2) (d a b : BitVec 7), s.issue = some i → i.writes d → i.reads [a, b] →
    let n := elementCount e
    let gives := fun (w : Instr) (f : Nat → Nat → BitVec (width e)) =>
      ∃ (t : State) (v : Nat → W64), exec w s = .next t ∧ OnlyRegs s t i (fun l r => r.set d (v l))
        ∧ ∀ l ∈ i.active, ∀ j < n, element e (v l) j = f l j
    let chosen := fun (v : Nat) =>
      if v / 8 % 32 ∈ i.active then element e (i.val (v / 8 % 32) a) (v % 8 % n) else 0#(width e)
    gives (.shfl e d a b) (fun l j => chosen (element e (i.val l b) j).toNat)
    ∧ gives (.bcst e d a b) (fun _ _ => chosen ((i.val (i.active.headD 0) b).toNat % 256))
    ∧ gives (.slide e 0#1 d a b) (fun l j =>
        if j ≠ 0 then element e (i.val l a) (j - 1)
        else match (i.below l).getLast? with
          | some k => element e (i.val k a) (n - 1)
          | none => element e (i.val l b) j)
    ∧ gives (.slide e 1#1 d a b) (fun l j =>
        if j + 1 < n then element e (i.val l a) (j + 1)
        else match (i.active.filter fun k => decide (l < k)).head? with
          | some k => element e (i.val k a) 0
          | none => element e (i.val l b) j)

/-- R202 to R205: LSCAN, LSSCAN, LRED and ISECT; nothing else changes. -/
def Says.ScanWords : Prop :=
  ∀ (s : State) (i : Issue) (incl : BitVec 1) (o : BitVec 3) (e : BitVec 2) (d a b : BitVec 7), s.issue = some i →
    i.writes d →
    let gives := fun (w : Instr) (e : BitVec 2) (ls : Nat → List Nat) =>
      let g := fun l j => scanOver o ((ls l).map fun k => element e (i.val k a) j)
      ∃ (t : State) (v : Nat → W64), exec w s = .next t
        ∧ OnlyRegs s t i (fun l r => { r.set d (v l) with fp := r.fp ||| flagsUpTo (elementCount e) fun j => (g l j).2 })
        ∧ ∀ l ∈ i.active, ∀ j < elementCount e, element e (v l) j = (g l j).1
    let upTo := fun l => i.active.filter fun k => decide (k < l) || (incl == 1#1 && k == l)
    (i.reads [a] → (o = 7#3 → e = 3#2) →
      gives (.lscan incl o d a e) e upTo
      ∧ gives (.lred incl o d a e) e (fun l => i.active.filter fun k => incl == 1#1 || k != l))
    ∧ (i.reads [a, b] →
      gives (.lsscan incl o d a b) 3#2 (fun l =>
        (upTo l).filter fun k => decide (∀ h ∈ i.active, k < h → h ≤ l → i.val h b = 0#64))
      ∧ ∃ (t : State) (v : Nat → W64), exec (.isect d a b) s = .next t ∧ OnlyRegs s t i (fun l r => r.set d (v l))
        ∧ ∀ l ∈ i.active,
          (∀ k < 32, (v l).getLsbD k = decide (k ∈ i.active ∧ i.val k b = i.val l a))
          ∧ ((v l).extractLsb' 32 8).toNat
              = (i.active.filter fun k => i.active.any fun m => (i.val k a).ule (i.val m b)).length
          ∧ ((v l).extractLsb' 40 24).toNat
              = (i.active.filter fun k => i.active.any fun m => (i.val k b).ule (i.val m a)).length)

/-- Table 8.8: what each combination gives and its identity, and, for .fadd, that elements are added in ascending rank with
one RNE rounding each, a single element keeping its bits. -/
def Says.ScanTable : Prop :=
  (∀ (e : BitVec 2) (x y : BitVec (width e)),
    let of := fun o => (scanOver o [x, y]).1
    of 0#3 = BitVec.ofNat _ (x.toNat + y.toNat) ∧ (of 1#3).toInt = min x.toInt y.toInt ∧ (of 2#3).toInt = max x.toInt y.toInt
    ∧ (of 3#3).toNat = min x.toNat y.toNat ∧ (of 4#3).toNat = max x.toNat y.toNat
    ∧ (∀ j, (of 5#3).getLsbD j = (x.getLsbD j && y.getLsbD j)) ∧ (∀ j, (of 6#3).getLsbD j = (x.getLsbD j || y.getLsbD j))
    ∧ (∀ o, o ≠ 7#3 → (scanOver o [x, y]).2 = 0#5)
    ∧ (scanOver 0#3 ([] : List (BitVec (width e)))).1 = 0 ∧ (scanOver 1#3 ([] : List (BitVec (width e)))).1.toInt = 2 ^ (width e - 1) - 1
    ∧ (scanOver 2#3 ([] : List (BitVec (width e)))).1.toInt = -2 ^ (width e - 1)
    ∧ (scanOver 3#3 ([] : List (BitVec (width e)))).1.toNat = 2 ^ width e - 1 ∧ (scanOver 4#3 ([] : List (BitVec (width e)))).1 = 0
    ∧ (∀ j < width e, (scanOver 5#3 ([] : List (BitVec (width e)))).1.getLsbD j = true)
    ∧ (scanOver 6#3 ([] : List (BitVec (width e)))).1 = 0)
  ∧ (∀ x y z : W64,
    let sum := fun (p q : W64) => f64.add .rne (f64.decode p.toNat) (f64.decode q.toNat)
    let first := sum x y
    let second := sum (BitVec.ofNat 64 first.bits) z
    scanOver 7#3 ([] : List W64) = (0#64, 0#5) ∧ scanOver 7#3 [x] = (x, 0#5)
    ∧ scanOver 7#3 [x, y] = (BitVec.ofNat 64 first.bits, first.flags)
    ∧ scanOver 7#3 [x, y, z] = (BitVec.ofNat 64 second.bits, first.flags ||| second.flags))
  ∧ ∀ (e : BitVec 2) (o : BitVec 3) (xs : List (BitVec (width e))) (y : BitVec (width e)), xs ≠ [] →
      scanOver o (xs ++ [y]) = ((scanOver o [(scanOver o xs).1, y]).1, (scanOver o xs).2 ||| (scanOver o [(scanOver o xs).1, y]).2)

/-! ## Control words -/

/-- R136, R140, R152 and Table 7.1: the branches and JMPI, as the last word of a clause: each active thread that takes
the transfer goes to its target, every other thread of the path to the next header; no register changes. -/
def Obligations.Transfers : Prop :=
  ∀ (s : State) (i : Issue) (o : BitVec 18) (p : BitVec 3) (a : BitVec 7), s.issue = some i → i.lastWord → i.replays = false →
    let goes := fun (w : Instr) (target : Nat → W64) (taken : Nat → Prop) =>
      ∃ t, exec w s = .next t ∧ SameRegs s t ∧ Kept s t
        ∧ PcsBecome t i fun l =>
            open Classical in
            if l ∈ i.active ∧ taken l then target l else i.path.header + BitVec.ofNat 64 (4 * i.path.words.length)
    let label := i.path.header + (o.signExtend 64) * 4#64
    let bit := fun l => (i.thread l).p.getLsbD p.toNat
    (canonical label = true → label &&& 3#64 = 0#64 →
      goes (.bra o) (fun _ => label) (fun _ => True)
      ∧ goes (.brp p o) (fun _ => label) (fun l => bit l = true)
      ∧ goes (.brnp p o) (fun _ => label) (fun l => bit l = false)
      ∧ (i.reads [a] →
        goes (.brz a o) (fun _ => label) (fun l => i.val l a = 0#64)
        ∧ goes (.brnz a o) (fun _ => label) (fun l => i.val l a ≠ 0#64)))
    ∧ (i.reads [a] → (∀ l ∈ i.active, canonical (i.val l a) = true ∧ i.val l a &&& 3#64 = 0#64) →
      goes (.jmpi a) (fun l => i.val l a) (fun _ => True))

/-- R141, R142, R155: a header whose flags are clear lets its path go on to word 1, and one whose flags are not keeps it;
REP and GRD set what they say for the word after them; no register but REPSTATE changes. The fields of each repetition
step as R141 says, in the R format. -/
def Says.HeadersAndPrefixes : Prop :=
  (∀ (s : State) (i : Issue) (w : BitVec 12) (a b l : BitVec 4) (y : BitVec 1), s.issue = some i → s.calm i.cursor.team →
    i.free → i.path.pos = 0 → 2 ≤ i.path.words.length → i.path.rep = none → i.path.prefixes = 0 →
    let names := fun f : Nat => w.getLsbD f || (a.toNat == f) || (b.toNat == f)
    let goes := fun n => ∃ t p, exec (.clauseHeader w a b l y) s = .next t ∧ SameRegs s t ∧ Kept s t
      ∧ t.path? i.cursor = some p ∧ p.pos = n ∧ p.words = i.path.words ∧ p.lanes = i.path.lanes
    ((∀ f < 12, names f = true → i.gang.flags.getLsbD f = false) → goes 1)
    ∧ ((∃ f < 12, names f = true ∧ i.gang.flags.getLsbD f = true) → goes 0))
  ∧ (∀ (s : State) (i : Issue) (c : BitVec 6) (sd sa sb : BitVec 3), s.issue = some i → i.path.start = 0 →
      i.repTrap sd.toNat sa.toNat sb.toNat (c.toNat + 1) = none →
      ∃ t p, exec (.rep c sd sa sb) s = .next t ∧ SameRegs s t ∧ Kept s t ∧ t.path? i.cursor = some p
        ∧ p.pos = i.path.pos + 1 ∧ p.prefixPos = some (i.path.prefixPos.getD i.path.pos)
        ∧ p.rep = some { count := c.toNat + 1, dStep := sd.toNat, aStep := sa.toNat, bStep := sb.toNat, done := 0 }
        ∧ ∀ l ∈ lanesOf i.path.lanes, ∀ th, t.thread? i.cursor.team i.cursor.gang l = some th →
            th.repState = BitVec.ofNat 64 ((c.toNat + 1) * 128))
  ∧ (∀ (s : State) (i : Issue) (n : BitVec 1) (q : BitVec 3), s.issue = some i →
      ∃ t p, exec (.grd n q) s = .next t ∧ SameRegs s t ∧ Kept s t ∧ t.path? i.cursor = some p
        ∧ p.pos = i.path.pos + 1 ∧ p.prefixPos = some (i.path.prefixPos.getD i.path.pos) ∧ p.guard = some (q, n)
        ∧ p.rep = i.path.rep)
  ∧ (∀ (i : Issue) (n : BitVec 1) (q : BitVec 3), i.path.guard = some (q, n) → ∀ l,
      l ∈ i.active ↔ l < 32 ∧ i.path.lanes.getLsbD l = true ∧ (i.thread l).p.getLsbD q.toNat = (n == 0#1))
  ∧ (∀ (r : RepRun) (op d a b : BitVec 7) (fn : BitVec 4), (op.toNat < 0x0C ∨ op.toNat = 0x12 ∨ op.toNat = 0x13) →
      d.toNat + r.done * r.dStep < 128 → a.toNat + r.done * r.aStep < 128 → b.toNat + r.done * r.bStep < 128 →
      r.word (packR op fn d a b) = packR op fn (d + BitVec.ofNat 7 (r.done * r.dStep))
        (a + BitVec.ofNat 7 (r.done * r.aStep)) (b + BitVec.ofNat 7 (r.done * r.bStep)))

/-- R141 and Table 3.6: a word under REP that is not its last repetition keeps its path at the word and counts one
repetition in REPSTATE; the last ends the REP with REPSTATE 0. Stated of MOV. -/
def Says.Repetitions : Prop :=
  ∀ (s : State) (i : Issue) (r : RepRun) (d a : BitVec 7), s.issue = some i → s.calm i.cursor.team → i.free →
    i.replays = false → i.path.rep = some r → i.writes d → i.reads [a] → r.count ≤ 64 → i.path.pos + 1 < i.path.words.length →
    ∃ t p, exec (.mov d a) s = .next t ∧ OnlyRegs s t i (fun l x => x.set d (i.val l a)) ∧ t.path? i.cursor = some p
      ∧ (if r.done + 1 < r.count then
          p.pos = i.path.pos ∧ p.rep = some { r with done := r.done + 1 } ∧ p.guard = i.path.guard
          ∧ ∀ l ∈ lanesOf i.path.lanes, ∀ th, t.thread? i.cursor.team i.cursor.gang l = some th →
              th.repState = BitVec.ofNat 64 ((r.count - (r.done + 1)) * 128 + (r.done + 1))
        else
          p.pos = i.path.pos + 1 ∧ p.rep = none ∧ p.guard = none
          ∧ ∀ l ∈ lanesOf i.path.lanes, ∀ th, t.thread? i.cursor.team i.cursor.gang l = some th → th.repState = 0#64)

/-- R141: which fields the steps of a REP change, by the format of each major opcode (d, a and b in format R, d and a in
format I, d in format L; immediates never), and the traps that a REP raises before its first repetition: ILLEGAL for a
step of a field that the format lacks, ILLOPND for one of a field that names a y register, a special operand or an index,
or that takes the field's run past x95. Stated of words of several majors. That a step of a field of indexes (cmp, fcmp,
mget) puts that field's value into TRAPINFO is the model's reading (DEDUCED, log 16). -/
def Says.RepSteps : Prop :=
  (∀ (r : RepRun) (op d a b : BitVec 7) (fn : BitVec 4) (k : BitVec 11) (m : BitVec 18),
    let inI := op.toNat ∈ [0x0C, 0x14, 0x1B, 0x1C, 0x1D, 0x1F, 0x23, 0x48, 0x49, 0x4A, 0x4B, 0x4D, 0x4E, 0x4F, 0x50, 0x5B, 0x69]
    let inL := op.toNat ∈ [0x26, 0x27, 0x28, 0x29]
    let at' := fun (f : BitVec 7) (step : Nat) => f + BitVec.ofNat 7 (r.done * step)
    let fits := fun (f : BitVec 7) (step : Nat) => f.toNat + r.done * step < 128
    (¬inI → ¬inL → fits d r.dStep → fits a r.aStep → fits b r.bStep →
      r.word (packR op fn d a b) = packR op fn (at' d r.dStep) (at' a r.aStep) (at' b r.bStep))
    ∧ (inI → fits d r.dStep → fits a r.aStep → r.word (packI op d a k) = packI op (at' d r.dStep) (at' a r.aStep) k)
    ∧ (inL → fits d r.dStep → r.word (packL op d m) = packL op (at' d r.dStep) m))
  ∧ ∀ (s : State) (i : Issue) (c : BitVec 6) (sd sa sb : BitVec 3) (pos : Nat), s.issue = some i → i.replays = false →
    let guarded := ∃ n q, decode (i.path.words.getD (i.path.pos + 1) 0#32) = .ok (.grd n q)
    ((pos = i.path.pos + 1 ∧ ¬guarded) ∨ (pos = i.path.pos + 2 ∧ guarded)) →
    let w := i.path.words.getD pos 0#32
    let is := fun (x : Instr) => decode w = .ok x
    let traps := fun (cause : Nat) (info : W64 → Prop) => ∀ l ∈ i.active, (i.thread l).hasHandler →
      ∃ t, exec (.rep c sd sa sb) s = .next t ∧ t.path? i.cursor = none
        ∧ ∀ th, t.thread? i.cursor.team i.cursor.gang l = some th → th.trapDepth = true
            ∧ th.trapPc = i.path.prefixAddr ∧ th.trapCause = BitVec.ofNat 64 (pos * 256 + cause) ∧ info th.trapInfo
            ∧ th.pc = (i.thread l).trapVec + BitVec.ofNat 64 (64 * cause) ∧ th.regs = (i.thread l).regs
    let illegal := traps Cause.illegal fun v => v = w.setWidth 64
    let illopnd := fun (v : Nat) => traps Cause.illopnd fun x => x = BitVec.ofNat 32 v ++ w
    let leaves := fun (f : BitVec 7) (step : BitVec 3) => step ≠ 0#3 ∧ 96 ≤ f.toNat + c.toNat * step.toNat
    let first := fun (f : BitVec 7) (step : BitVec 3) (v : Nat) =>
      ∃ k ≤ c.toNat, v = f.toNat + k * step.toNat ∧ 96 ≤ v ∧ ∀ j < k, f.toNat + j * step.toNat < 96
    ∀ (d a b p : BitVec 7) (u g : BitVec 1) (e : BitVec 2) (k : BitVec 11) (m : BitVec 18) (n : BitVec 6),
      (∀ x ∈ [Instr.add u g e d a b, .mul u g e d a b, .and d a b, .shl e d a b, .bfi d a b, .fadd e e d a b, .ffma e e d a b,
          .shfl e d a b, .isect d a b, .sts e d a b], is x → ∀ v,
        (leaves d sd → first d sd v → illopnd v)
        ∧ (¬leaves d sd → leaves a sa → first a sa v → illopnd v)
        ∧ (¬leaves d sd → ¬leaves a sa → leaves b sb → first b sb v → illopnd v))
      ∧ (∀ x ∈ [Instr.addi d a k, .xori d a k, .shli d a n, .ldd d a k, .stb d a k], is x → sb ≠ 0#3 → illegal)
      ∧ (∀ x ∈ [Instr.mvi d m, .mvh1 d m], is x → (sa ≠ 0#3 ∨ sb ≠ 0#3) → illegal)
      ∧ (∀ x ∈ [Instr.cmp u 0#3 p a b, .fcmp e e p a b], is x → sd ≠ 0#3 → illopnd p.toNat)
      ∧ (is (.mget d p) → sd = 0#3 → sa ≠ 0#3 → illopnd p.toNat)

/-- R156: WBASE sets WINBASE in each active thread, within its registers; an immediate of 32 or more raises ILLOPND, and
a base at or above the allocation raises WINDOW. -/
def Says.WindowBase : Prop :=
  ∀ (s : State) (i : Issue) (k : BitVec 11), s.issue = some i →
    (k.toNat < 32 → (∀ l ∈ i.active, 8 * k.toNat < (i.lane l).alloc) →
      ∃ t, exec (.wbase k) s = .next t ∧ OnlyRegs s t i fun _ r => { r with winBase := 8 * k.toNat })
    ∧ ∀ l ∈ i.active, i.replays = false → (i.thread l).hasHandler → (32 ≤ k.toNat ∨ (i.lane l).alloc ≤ 8 * k.toNat) →
      ∃ t, exec (.wbase k) s = .next t
        ∧ if 32 ≤ k.toNat then Entered t i l Cause.illopnd (BitVec.ofNat 32 k.toNat ++ i.word) i.path.prefixAddr
          else Entered t i l Cause.window (BitVec.ofNat 64 (8 * k.toNat)) i.path.prefixAddr

/-- R29 and R154: EXIT ends the active threads: they wait for nothing more, their bits leave every mask, and the results
of their pending operations are discarded; no register changes. -/
def Obligations.ExitEndsThreads : Prop :=
  ∀ (s : State) (i : Issue), s.issue = some i →
    ∃ t, exec .exit s = .next t ∧ SameRegs s t ∧ SameMemory s t ∧ SameHoldings s t ∧ SameAudit s t
      ∧ (∀ l ∈ i.active, ∀ th, t.thread? i.cursor.team i.cursor.gang l = some th → th.exited = true ∧ th.blocked = .none)
      ∧ (∀ o ∈ t.ops, o.team = i.cursor.team → o.gang = i.cursor.gang → o.lane ∈ i.active → o.live = false)
      ∧ ∀ g, t.gang? i.cursor.team i.cursor.gang = some g →
          g.masks = i.gang.masks.map fun m => m &&& ~~~maskOf i.active

/-! ## Masks and votes -/

/-- R30, R157, R158 and R187: JOIN, LEAVE, MSET and FPCMP write one mask, MGET reads one, WAITM writes none and blocks
those of its members that must wait. -/
def Says.MaskWords : Prop :=
  ∀ (s : State) (i : Issue) (m : BitVec 7) (a b : BitVec 7), s.issue = some i → m.toNat < 12 → i.gang.masks.length = 12 →
    let old := i.gang.masks.getD m.toNat 0#32
    let lanes := maskOf i.active
    let writes := fun (w : Instr) (v : W32) =>
      ∃ t, exec w s = .next t ∧ SameMemory s t ∧ SameHoldings s t ∧ SameAudit s t ∧ SameTraps s t
        ∧ (∀ u g, (t.gang? u g).map Gang.masks = (s.gang? u g).map fun x =>
            if u = i.cursor.team ∧ g = i.cursor.gang then i.gang.masks.set m.toNat v else x.masks)
        ∧ (match w with
           | .fpcmp .. => True
           | _ => SameRegs s t)
    let alive := maskOf ((List.range 32).filter fun l => !(i.thread l).exited)
    writes (.join m) (old ||| lanes)
    ∧ writes (.leave m) (old &&& ~~~lanes)
    ∧ (i.reads [b] → i.replays = false → ∀ l, i.active.getLast? = some l → writes (.mset m b) ((i.val l b).setWidth 32 &&& alive))
    ∧ (i.reads [a, b] → ∀ (c t : BitVec 2),
        let r := fun l => compareAll (typeFmt t) c (i.val l a) (i.val l b)
        let v := (old &&& ~~~lanes) ||| maskOf (i.active.filter fun l => (r l).1)
        writes (.fpcmp c t m a b) v
        ∧ ∃ t', exec (.fpcmp c t m a b) s = .next t' ∧ RegsBecome s t' i fun l x => { x with fp := x.fp ||| (r l).2 })
    ∧ (∀ d, i.writes d → ∃ t, exec (.mget d m) s = .next t ∧ OnlyRegs s t i fun _ r => r.set d (old.setWidth 64))
    ∧ ∃ t, exec (.waitm m) s = .next t ∧ SameRegs s t ∧ Kept s t
      ∧ (s.calm i.cursor.team → i.free → i.replays = false →
          let waits := fun l => (i.thread l).blocked = .waitm m.toNat ∨ l ∈ i.active
          ∀ l ∈ i.active, old.getLsbD l = true → ∀ th, t.thread? i.cursor.team i.cursor.gang l = some th →
            ((∀ k < 32, old.getLsbD k = true → waits k) → th.blocked = .none ∨ th.blocked = .released old)
            ∧ ((∃ k < 32, old.getLsbD k = true ∧ ¬waits k) → th.blocked = .waitm m.toNat))

/-- R30, R154, R157 and R187: whom EXIT, LEAVE, MSET and FPCMP release, among the threads that wait on a mask. A member
of the new mask goes on when every member waits, and else waits on; a thread that MSET or FPCMP takes out of the mask goes
on at once. A mask from which EXIT takes no thread releases none. -/
def Says.MaskReleases : Prop :=
  ∀ (s : State) (i : Issue) (m a b : BitVec 7), s.issue = some i → i.replays = false → s.calm i.cursor.team →
    i.gang.masks.length = 12 →
    let lanes := maskOf i.active
    let alive := maskOf ((List.range 32).filter fun l => !(i.thread l).exited)
    let waits := fun (k l : Nat) => (i.thread l).blocked = .waitm k
    let whole := fun (k : Nat) (v : W32) => ∀ j < 32, v.getLsbD j = true → waits k j
    let becomes := fun (t : State) (l : Nat) (P : Blocked → Prop) =>
      ∀ th, t.thread? i.cursor.team i.cursor.gang l = some th → P th.blocked
    let member := fun (t : State) (k l : Nat) (v : W32) =>
      (whole k v → becomes t l fun x => x = .none ∨ x = .released v) ∧ (¬whole k v → becomes t l fun x => x = .waitm k)
    let others := fun (P : Nat → Prop) => ∀ l < 32, l ∉ lanesOf i.path.lanes → P l
    (∃ t, exec .exit s = .next t ∧ ∀ k < 12, let old := i.gang.masks.getD k 0#32
      others fun l => waits k l →
        (old &&& lanes = 0#32 → becomes t l fun x => x = .waitm k)
        ∧ (old &&& lanes ≠ 0#32 → (old &&& ~~~lanes).getLsbD l = true → member t k l (old &&& ~~~lanes)))
    ∧ (m.toNat < 12 →
      let old := i.gang.masks.getD m.toNat 0#32
      (∃ t, exec (.leave m) s = .next t ∧ others fun l => waits m.toNat l → (old &&& ~~~lanes).getLsbD l = true →
        member t m.toNat l (old &&& ~~~lanes))
      ∧ let writes := fun (w : Instr) (v : W32) => ∃ t, exec w s = .next t ∧ others fun l => waits m.toNat l →
          (v.getLsbD l = false → becomes t l fun x => x = .none) ∧ (v.getLsbD l = true → member t m.toNat l v)
        (i.reads [b] → ∀ l, i.active.getLast? = some l → writes (.mset m b) ((i.val l b).setWidth 32 &&& alive))
        ∧ (i.reads [a, b] → ∀ c t : BitVec 2, writes (.fpcmp c t m a b)
            ((old &&& ~~~lanes) ||| maskOf (i.active.filter fun l => (compareAll (typeFmt t) c (i.val l a) (i.val l b)).1))))

/-- R159 and Table 7.5: the votes count the active threads; nothing else changes. -/
def Says.Votes : Prop :=
  ∀ (s : State) (i : Issue) (p d a : BitVec 7), s.issue = some i →
    let sets := fun (w : Instr) (f : Nat → Bool) =>
      ∃ t, exec w s = .next t ∧ OnlyRegs s t i fun l r => r.setPred p.toNat (f l)
    let gives := fun (w : Instr) (f : Nat → Nat → Bool) =>
      ∃ t, exec w s = .next t ∧ OnlyRegs s t i fun l r =>
        r.set d (BitVec.ofFnLE fun k => decide (k.val < 32) && f l k.val)
    (p.toNat < 8 → i.reads [a] →
      sets (.anyVote p a) (fun _ => i.active.any fun k => i.val k a != 0#64)
      ∧ sets (.allVote p a) (fun _ => i.active.all fun k => i.val k a != 0#64))
    ∧ (p.toNat < 8 → sets (.elect p) (fun l => i.active.all fun k => decide (l ≤ k)))
    ∧ (i.writes d → i.reads [a] →
      gives (.ballot d a) (fun _ k => decide (k ∈ i.active) && i.val k a != 0#64)
      ∧ gives (.matchLanes d a) (fun l k => decide (k ∈ i.active) && i.val k a == i.val l a))
    ∧ (i.writes d → gives (.active d) (fun _ k => decide (k ∈ i.active)))

/-! ## System words -/

/-- R162, R163: TRAP and BRK make every active thread take the trap TRAP, with the word after them as TRAPPC; ERET in
handler mode ends it and goes on at TRAPPC; outside handler mode it raises PRIV. -/
def Obligations.TrapWords : Prop :=
  ∀ (s : State) (i : Issue) (c a : BitVec 7), s.issue = some i → i.replays = false →
    let after := i.path.header + BitVec.ofNat 64 (4 * (i.path.pos + 1))
    ((∀ l ∈ i.active, (i.thread l).hasHandler) →
      (∃ t, exec (.brk c) s = .next t ∧ SameRegs s t ∧ SameMemory s t ∧ SameHoldings s t ∧ SameMasks s t
        ∧ ∀ l ∈ i.active, Entered t i l Cause.trap (BitVec.ofNat 64 (2 ^ 63 + c.toNat)) after)
      ∧ (i.reads [a] → ∃ t, exec (.trap a) s = .next t ∧ SameRegs s t ∧ SameMemory s t ∧ SameHoldings s t ∧ SameMasks s t
        ∧ ∀ l ∈ i.active, Entered t i l Cause.trap (i.val l a) after))
    ∧ ((∀ l ∈ i.active, (i.thread l).trapDepth = true ∧ (i.thread l).mayConverge = false) → i.lastWord →
      ∃ t, exec .eret s = .next t ∧ SameRegs s t ∧ SameMemory s t ∧ SameHoldings s t ∧ SameMasks s t
        ∧ ∀ l ∈ i.active, ∀ th, t.thread? i.cursor.team i.cursor.gang l = some th →
            th.trapDepth = false ∧ th.place = (i.thread l).trapPc)
    ∧ ∀ l ∈ i.active, (i.thread l).hasHandler →
      ∃ t, exec .eret s = .next t ∧ Entered t i l Cause.priv (i.word.setWidth 64) i.path.prefixAddr

/-- R161, R165 and R160: YIELD and ICINV change no register; ICINV empties its core's instruction cache; REWARP outside
DET makes each active thread wait, when its clause retires, with the low 16 bits of its key register. -/
def Says.RegroupAndHints : Prop :=
  ∀ (s : State) (i : Issue), s.issue = some i →
    (∃ t, exec .yield s = .next t ∧ SameRegs s t ∧ Kept s t)
    ∧ (∃ t, exec .icinv s = .next t ∧ SameRegs s t ∧ Kept s t ∧ (i.active ≠ [] → (t.core i.team.core).icache = []))
    ∧ ∀ a n : BitVec 7, i.launch.det = false → i.replays = false → i.reads [a] → 1 ≤ n.toNat → n.toNat ≤ 32 →
        (∀ l ∈ i.active, (i.thread l).trapDepth = false ∧ (i.thread l).winBase + n.toNat ≤ (i.thread l).x.length) →
        ∃ t, exec (.rewarp a n) s = .next t ∧ SameRegs s t ∧ SameMemory s t ∧ SameHoldings s t ∧ SameMasks s t ∧ SameAudit s t
          ∧ (i.path.pos + 1 < i.path.words.length → i.path.rep = none → i.free →
              ∀ l ∈ i.active, ∀ th, t.thread? i.cursor.team i.cursor.gang l = some th →
                th.atRetire = .rewarp ((i.val l a).setWidth 16) n.toNat i.path.prefixAddr i.path.pos i.path.header i.path.lanes)

/-- R64, R164 and Tables 3.3 to 3.11: SRD reads each status register, and SWR writes each that may be written, REPSTATE among
them (a REP before the SWR sets REPSTATE itself as its repetition ends); AUDITCTL
may be read in handler mode alone, and the registers of a trap written there alone (PRIV otherwise). -/
def Obligations.StatusRegisters : Prop :=
  ∀ (s : State) (i : Issue) (d h k : BitVec 7), s.issue = some i →
    let r := h.toNat * 128 + k.toNat
    let value := fun l =>
      let t := i.thread l
      match r with
      | 0 => t.trapPc
      | 1 => t.trapCause
      | 2 => t.trapInfo
      | 3 => t.trapVec
      | 4 => t.repState
      | 5 => BitVec.ofNat 64 t.winBase
      | 6 => if t.satf then 1#64 else 0#64
      | 7 => t.fp.setWidth 64
      | 8 => BitVec.ofNat 64 t.retDepth
      | 9 => t.privBase
      | 10 => (i.launch.control &&& 31#64) + (if t.recording then 32#64 else 0#64) + (if i.task.reexec then 64#64 else 0#64)
      | 11 => i.team.engMap.setWidth 64 + BitVec.ofNat 64 (i.team.timelines.length * 65536)
      | 12 => BitVec.ofNat 64 (i.team.barBase + i.team.barriers.length * 1024)
      | 13 => i.launch.record
      | 14 => i.launch.seed
      | 15 => if t.trapDepth then 1#64 else 0#64
      | 16 => (s.core i.team.core).auditCtl
      | _ => s.island.deviceId.setWidth 64
    (r < 18 → i.replays = false → i.writes d → (r = 16 → ∀ l ∈ i.active, (i.thread l).trapDepth = true) →
      ∃ t, exec (.srd d h k) s = .next t ∧ OnlyRegs s t i fun l x => x.set d (value l))
    ∧ (r < 18 → i.reads [d] →
      (∀ l ∈ i.active, (r = 0 ∨ r = 1 ∨ r = 2 ∨ r = 4 ∨ r = 16) → (i.thread l).trapDepth = true) →
      (∀ l ∈ i.active, statusLegal r (i.val l d) = true) →
      ∃ t, exec (.swr d h k) s = .next t ∧ SameMemory s t ∧ SameHoldings s t ∧ SameMasks s t
        ∧ (RegsBecome s t i fun l x =>
            let v := i.val l d
            match r with
            | 3 => { x with trapVec := v }
            | 6 => { x with satf := v.getLsbD 0 }
            | 7 => { x with fp := v.setWidth 5 }
            | _ => x)
        ∧ (∀ l ∈ i.active, (i.thread l).mayConverge = false → ∀ th, t.thread? i.cursor.team i.cursor.gang l = some th →
            th.trapRegs =
              let q := (i.thread l).trapRegs
              match r with
              | 0 => { q with pc := i.val l d }
              | 1 => { q with cause := i.val l d }
              | 2 => { q with info := i.val l d }
              | _ => q)
        ∧ (∀ l, i.active.getLast? = some l → r = 16 → (t.core i.team.core).auditCtl = i.val l d)
        ∧ (r ≠ 16 → SameAudit s t)
        ∧ (i.path.rep = none → ∀ u g l, (t.thread? u g l).map Thread.repState = (s.thread? u g l).map fun th =>
            if u = i.cursor.team ∧ g = i.cursor.gang ∧ l ∈ i.active ∧ r = 4 then i.val l d else th.repState))
    ∧ ∀ l ∈ i.active, i.replays = false → (i.thread l).hasHandler → (i.lane l).writable d 1 →
        (r = 16 → ∃ t, exec (.srd d h k) s = .next t ∧ Entered t i l Cause.priv (i.word.setWidth 64) i.path.prefixAddr)
        ∧ ((r = 0 ∨ r = 1 ∨ r = 2 ∨ r = 4 ∨ r = 16) → (i.lane l).readable d 1 →
            ∃ t, exec (.swr d h k) s = .next t ∧ Entered t i l Cause.priv (i.word.setWidth 64) i.path.prefixAddr)

/-- R53 and R166: CNTI gives the words that the thread has retired, and a word that retires adds one, with its prefixes;
CNTC under DET gives the same count, and outside DET one value in every active thread; that it is above what the counter
last showed is the model's choice (DESIGN CHOICE, log 9). -/
def Says.Counters : Prop :=
  ∀ (s : State) (i : Issue) (d : BitVec 7), s.issue = some i → i.writes d →
    let counted := fun l => (i.thread l).cnti + if i.path.prefixes ≠ 0 then i.path.prefixes else 0
    (i.path.start = 0 →
      (∃ t, exec (.cnti d) s = .next t ∧ OnlyRegs s t i fun l r => r.set d (BitVec.ofNat 64 (counted l)))
      ∧ (i.launch.det = true → ∃ t, exec (.cntc d) s = .next t
          ∧ OnlyRegs s t i fun l r => r.set d (BitVec.ofNat 64 (counted l))))
    ∧ (i.launch.det = false → ∃ t v, exec (.cntc d) s = .next t ∧ (s.core i.team.core).cycles < v
        ∧ OnlyRegs s t i fun _ r => r.set d (BitVec.ofNat 64 v))
    ∧ (i.path.start = 0 → i.replays = false → i.path.rep = none → i.path.pos + 1 < i.path.words.length → i.free → s.calm i.cursor.team →
        ∀ a, i.reads [a] → ∃ t, exec (.mov d a) s = .next t
          ∧ ∀ l ∈ lanesOf i.path.lanes, ∀ th, t.thread? i.cursor.team i.cursor.gang l = some th → th.cnti = counted l + 1)

/-! ## Loads and stores -/

/-- R81, R261, R313: an address that is not canonical raises ADDR; one that no entry of the core's TLB translates for
its context waits for a walk; otherwise the entry's leaf gives the physical address, ADDR where it does not exist, and
PROT where the leaf does not grant the access. -/
def Obligations.Translation : Prop :=
  ∀ (s : State) (core ctx : Nat) (va : W64) (n : Need),
    (canonical va = false → s.translate core ctx va n = .trap { cause := Cause.addr, info := va })
    ∧ (canonical va = true →
      ((∀ e ∈ (s.core core).tlb, e.ctx = ctx → e.base ≤ va.toNat → va.toNat < e.base + e.size → False) →
        s.translate core ctx va n = .miss)
      ∧ ∀ e rest, (s.core core).tlb = e :: rest → e.ctx = ctx → e.base ≤ va.toNat → va.toNat < e.base + e.size →
          let pa := pteAddr e.leaf + va.toNat % leafBytes (pteSize e.leaf)
          (pa < 2 ^ 39 ∨ pa.testBit 51 = true →
            (pteCtx e.leaf = ctx ∨ pteCtx e.leaf = 16) → (n.r = true → e.leaf.getLsbD 3 = true) →
            (n.w = true → e.leaf.getLsbD 4 = true) → (n.x = true → e.leaf.getLsbD 5 = true) →
            s.translate core ctx va n = .ok pa e.leaf)
          ∧ (2 ^ 39 ≤ pa → pa.testBit 51 = false →
            s.translate core ctx va n = .trap { cause := Cause.addr, info := va })
          ∧ (pa < 2 ^ 39 →
            ((pteCtx e.leaf ≠ ctx ∧ pteCtx e.leaf ≠ 16) ∨ (n.r = true ∧ e.leaf.getLsbD 3 = false)
              ∨ (n.w = true ∧ e.leaf.getLsbD 4 = false) ∨ (n.x = true ∧ e.leaf.getLsbD 5 = false)) →
            s.translate core ctx va n = .trap { cause := Cause.prot, info := va }))

/-- R86, R87, R206, R207, R211: a load issues one operation for each active thread, to complete later, at a + imm or
a + b. It has no value yet where its thread's own stores and the L1 give none; it takes the L1's bytes, or none yet,
where the L1 holds its sector; and it takes its thread's own youngest store to exactly its bytes, unless an earlier access
of its thread or of a lower lane to those bytes has yet to bind, or an acquire of its thread comes first. No register or
memory changes. -/
def Obligations.Loads : Prop :=
  ∀ (s : State) (i : Issue) (d a b : BitVec 7) (m : BitVec 11), s.issue = some i → s.calm i.cursor.team → i.unheld →
    (s.core i.team.core).clean → i.writes d → i.reads [a, b] →
    let loads := fun (w : Instr) (n : Nat) (sx stream : Bool) (addr : Nat → W64) =>
      ∀ pa : Nat → Nat, s.reaches i .load n addr pa →
        ∃ t, exec w s = .next t ∧ SameRegs s t ∧ Kept s t ∧ Issued s t i fun l k => ∃ r : LoadReq, k = .load r
          ∧ r.dest = (i.lane l).dest d ∧ r.va = addr l ∧ r.pa = pa l ∧ r.size = n ∧ r.signExtend = sx
          ∧ (stream = true → r.allocate = false)
          ∧ (s.storing i.team.core i.cursor.team i.cursor.gang l = false →
            match (s.core i.team.core).l1Find (pa l / 64) with
            | none => r.bound = none
            | some x => r.bound = none ∨ r.bound = some (loadValue n sx ((x.data.drop (pa l % 64)).take n)))
          ∧ ∀ xs x, s.ownStores i.team.core i.cursor.team i.cursor.gang l (i.thread l).memSeq = xs ++ [x] →
              x.pa = pa l → x.data.length = n →
              s.pendsBefore i.team.core i.cursor.team i.cursor.gang l (i.thread l).memSeq (pa l) n false = false →
              s.laneBefore i.cursor.team i.cursor.gang s.tick l i.path.prefixAddr (pa l) n = false → s.behind i [l] = false →
              (∀ k ∈ i.active, k < l → pa k + n ≤ pa l ∨ pa l + n ≤ pa k) →
              r.bound = some (loadValue n sx x.data)
    let offset := fun l => i.val l a + m.signExtend 64
    loads (.ldd d a m) 8 false false offset
    ∧ loads (.ldw d a m) 4 false false offset
    ∧ loads (.ldh d a m) 2 false false offset
    ∧ loads (.ldb d a m) 1 false false offset
    ∧ ∀ (x z : BitVec 1) (e : BitVec 2),
        loads (.ldx x z e d a b) (2 ^ e.toNat) (z == 1#1) (x == 1#1) fun l => i.val l a + i.val l b

/-- R86, R206, R207: a store puts the low bytes of its register into its core's store path, at a + imm or a + b, for each
active thread in order; no register changes, and no byte of device memory until the store is acknowledged. Where a CLAIM
or TXC of the thread before it has no result yet the model keeps it back, and the gang counts it when it enters the path
(DESIGN CHOICE, log 20). -/
def Says.Stores : Prop :=
  ∀ (s : State) (i : Issue) (d a b : BitVec 7) (m : BitVec 11), s.issue = some i → i.unheld → i.reads [d, a, b] →
    let stores := fun (w : Instr) (n : Nat) (addr : Nat → W64) =>
      ∀ pa : Nat → Nat, s.reaches i .store n addr pa →
        ∃ t, exec w s = .next t ∧ SameRegs s t ∧ Kept s t
          ∧ Queued s t i fun l => (l, pa l, bytesOfNat n (i.val l d).toNat, .plain)
    let offset := fun l => i.val l a + m.signExtend 64
    stores (.std d a m) 8 offset
    ∧ stores (.stw d a m) 4 offset
    ∧ stores (.sth d a m) 2 offset
    ∧ stores (.stb d a m) 1 offset
    ∧ ∀ e : BitVec 2, stores (.stx e d a b) (2 ^ e.toNat) fun l => i.val l a + i.val l b

/-- R313, R206: a load or store at an address that is not a multiple of its size raises ALIGN, with the address as
TRAPINFO, in the thread of that address. Stated of LDD and STD. -/
def Says.Alignment : Prop :=
  ∀ (s : State) (i : Issue) (d a : BitVec 7) (m : BitVec 11), s.issue = some i → i.unheld → i.path.lanes = 1#32 →
    i.active = [0] → (i.thread 0).hasHandler → i.writes d → i.reads [d, a] →
    let address := i.val 0 a + m.signExtend 64
    address.toNat % 8 ≠ 0 →
    (∃ t, exec (.ldd d a m) s = .next t ∧ Entered t i 0 Cause.align address i.path.prefixAddr)
    ∧ ∃ t, exec (.std d a m) s = .next t ∧ Entered t i 0 Cause.align address i.path.prefixAddr

/-- R153: CALL and CALLI store the address of the next clause in the return stack, add one to RETDEPTH and go; at a
depth of 32 they raise CALLDEPTH. -/
def Says.Calls : Prop :=
  ∀ (s : State) (i : Issue) (o : BitVec 18) (a : BitVec 7), s.issue = some i →
    let slot := fun l => (i.thread l).privBase + BitVec.ofNat 64 (8 * (i.thread l).retDepth)
    let label := i.path.header + (o.signExtend 64) * 4#64
    let next := i.path.header + BitVec.ofNat 64 (4 * i.path.words.length)
    let calls := fun (w : Instr) (target : Nat → W64) =>
      (∀ pa : Nat → Nat, i.unheld → i.lastWord → s.finds i .store 8 slot pa →
        (∀ l ∈ i.active, (i.thread l).retDepth < 32 ∧ canonical (target l) = true ∧ target l &&& 3#64 = 0#64) →
        ∃ t, exec w s = .next t ∧ OnlyRegs s t i (fun _ r => { r with retDepth := r.retDepth + 1 })
          ∧ Queued s t i (fun l => (l, pa l, bytesOfNat 8 next.toNat, .plain))
          ∧ PcsBecome t i fun l => open Classical in if l ∈ i.active then target l else next)
      ∧ (i.unheld → i.path.lanes = 1#32 → i.active = [0] → (i.thread 0).hasHandler → (i.thread 0).retDepth = 32 →
        ∃ t, exec w s = .next t ∧ Entered t i 0 Cause.calldepth (target 0) i.path.prefixAddr)
    calls (.call o) (fun _ => label) ∧ (i.reads [a] → calls (.calli a) fun l => i.val l a)

/-- R153: RET goes to the address on top of the return stack, as its own push or memory holds it, and takes one from
RETDEPTH; at depth 0 it raises RETSTACK. -/
def Says.Returns : Prop :=
  ∀ (s : State) (i : Issue), s.issue = some i →
    let slot := fun l => (i.thread l).privBase + BitVec.ofNat 64 (8 * ((i.thread l).retDepth - 1))
    (∀ (pa : Nat → Nat) (v : Nat → W64), i.unheld → i.lastWord → s.finds i .load 8 slot pa →
      (∀ l ∈ i.active, (i.thread l).retDepth ≠ 0 ∧ s.behind i [l] = false ∧ isRemote (pa l) = false ∧ canonical (v l) = true ∧ v l &&& 3#64 = 0#64
        ∧ s.pendsBefore i.team.core i.cursor.team i.cursor.gang l (i.thread l).memSeq (pa l) 8 false = false
        ∧ ((s.storing i.team.core i.cursor.team i.cursor.gang l = false ∧ (s.core i.team.core).l1Find (pa l / 64) = none
              ∧ s.poisonedAt (pa l) 8 = false ∧ (v l).toNat = s.mem.readNat (pa l) 8)
          ∨ ∃ xs x, s.ownStores i.team.core i.cursor.team i.cursor.gang l (i.thread l).memSeq = xs ++ [x]
              ∧ x.pa = pa l ∧ x.data = bytesOfNat 8 (v l).toNat)) →
      ∃ t, exec .ret s = .next t ∧ OnlyRegs s t i (fun _ r => { r with retDepth := r.retDepth - 1 })
        ∧ PcsBecome t i fun l => open Classical in
            if l ∈ i.active then v l else i.path.header + BitVec.ofNat 64 (4 * i.path.words.length))
    ∧ (i.unheld → i.path.lanes = 1#32 → i.active = [0] → (i.thread 0).hasHandler → (i.thread 0).retDepth = 0 →
      ∃ t, exec .ret s = .next t ∧ Entered t i 0 Cause.retstack 0#64 i.path.prefixAddr)

/-- R209: LDS reads the team's scratch, and STS writes it, in ascending lanes, and no other byte; an offset beyond it
raises ADDR. A STS behind a release of its thread waits for the reads and stores that the release puts before it (R89,
R97); LDS of bytes in a log region that a transaction has used is left out, as R219 gives that region no content. -/
def Obligations.Scratch : Prop :=
  ∀ (s : State) (i : Issue) (d a b : BitVec 7) (e : BitVec 2), s.issue = some i → i.gang.tx = none →
    let n := 2 ^ e.toNat
    let at' := fun l => (i.val l a + i.val l b).toNat
    let inside := ∀ l ∈ i.active, at' l % n = 0 ∧ at' l + n ≤ 16384 * i.team.scratchUnits
    let released := fun l => s.applied i.team.core (i.thread l).relStore = true
      ∧ s.readsBoundBefore i.cursor.team i.cursor.gang l (i.thread l).relRead = true
      ∧ s.deferredBefore i.team.core i.cursor.team i.cursor.gang l (i.thread l).relRead = false
    (i.writes d → i.reads [a, b] → inside → (∀ l ∈ i.active, i.team.unlogged (at' l) n) → ∀ z : BitVec 1,
      ∃ t, exec (.lds z e d a b) s = .next t ∧ OnlyRegs s t i fun l r =>
        r.set d (loadValue n (z == 1#1) (i.team.scratch.readBytes (at' l) n)))
    ∧ ((∃ l ∈ i.active, ¬released l) → ∃ t, exec (.sts e d a b) s = .next t ∧ SameRegs s t ∧ Kept s t
        ∧ t.path? i.cursor = some { i.path with held := true })
    ∧ (i.reads [d, a, b] → inside → i.team.scratch.wf = true → (∀ l ∈ i.active, released l) →
      ∃ t u, exec (.sts e d a b) s = .next t ∧ SameRegs s t ∧ SameMemory s t ∧ SameMasks s t ∧ SameAudit s t ∧ SameTraps s t
        ∧ t.team? i.cursor.team = some u ∧ { u.holdings with scratch := i.team.scratch } = i.team.holdings
        ∧ (∀ c, c ≠ i.cursor.team → (t.team? c).map Team.holdings = (s.team? c).map Team.holdings)
        ∧ (∀ x, (∀ l ∈ i.active, x < at' l ∨ at' l + n ≤ x) → u.scratch.read x = i.team.scratch.read x)
        ∧ ∀ l ∈ i.active, ∀ k < n, (∀ j ∈ i.active, l < j → at' l + k < at' j ∨ at' j + n ≤ at' l + k) →
            u.scratch.read (at' l + k) = (i.val l d).extractLsb' (8 * k) 8)
    ∧ (i.replays = false → i.path.lanes = 1#32 → i.active = [0] → (i.thread 0).hasHandler → i.writes d → i.reads [d, a, b] →
        released 0 → at' 0 % n = 0 → 16384 * i.team.scratchUnits < at' 0 + n →
        (∀ z : BitVec 1, ∃ t, exec (.lds z e d a b) s = .next t
          ∧ Entered t i 0 Cause.addr (BitVec.ofNat 64 (at' 0)) i.path.prefixAddr)
        ∧ ∃ t, exec (.sts e d a b) s = .next t
          ∧ Entered t i 0 Cause.addr (BitVec.ofNat 64 (at' 0)) i.path.prefixAddr)

/-- R85, R210: PRFL1 fills the four sectors of each line of device memory that an active thread names into the core's L1,
unless the page's policy excludes the L1, and fills nothing else; PRFL2 changes nothing; DSCD removes the named lines and
nothing else. A thread whose translation fails does nothing, and none changes a register or memory. Stated of translations
that the TLB holds; that what is filled stays in the L1 until the step's end is the model's choice (DESIGN CHOICE, log
10). That DSCD leaves a named line whose aperture of the system window is unused is the model's choice too (DESIGN CHOICE,
log 3). -/
def Says.PrefetchAndDiscard : Prop :=
  ∀ (s : State) (i : Issue) (a b : BitVec 7), s.issue = some i → i.replays = false → i.reads [a, b] →
    let look := fun l n => s.translate i.team.core i.team.ctx (i.val l a + i.val l b) n
    let old := (s.core i.team.core).l1
    let line := fun (x : L1Sector) => x.data = s.mem.readBytes (64 * x.sector) 64
    let fills := fun l pa => isRemote pa = false ∧ ∃ leaf, look l .load = .ok pa leaf ∧ pteCache leaf = 0
    let runs := fun (w : Instr) (n : Need) (p : List L1Sector → Prop) => (∀ l ∈ i.active, look l n ≠ .miss) →
      ∃ t, exec w s = .next t ∧ SameRegs s t ∧ Kept s t ∧ p (t.core i.team.core).l1
    runs (.prfl2 a b) .load (fun l1 => l1 = old)
    ∧ runs (.prfl1 a b) .load (fun l1 =>
        (∀ x ∈ l1, x ∈ old ∨ (line x ∧ ∃ l ∈ i.active, ∃ pa, fills l pa ∧ pa / 256 = x.sector / 4))
        ∧ ∀ l ∈ i.active, ∀ pa, fills l pa → ∀ k < 4, ∃ x ∈ l1, x.sector = pa / 256 * 4 + k ∧ line x)
    ∧ runs (.dscd a b) .nothing fun l1 => ∀ x, x ∈ l1 ↔ x ∈ old
        ∧ ¬∃ l ∈ i.active, ∃ pa leaf, look l .nothing = .ok pa leaf ∧ (isRemote pa = true → s.target pa ≠ .unused) ∧ pa / 256 = x.sector / 4

/-- R110 and R117, for one thread's STD to a tracked page of an acting trace: outside the traced launch it raises EDIT; to
an input granule, or to one that another task has written and that the task may not take over, TRACECONFLICT; and to one
that an earlier task has read, unless R112 admitted the read, TRACEORDER. A store that traps changes neither memory nor
trace. Otherwise the bytes are written, the task becomes the granule's writer, and the other readers are marked if the
granule changes, as is the writer that loses it. That such a store is performed in the step that issues it, once the
core's store path is empty, is the model's choice (DESIGN CHOICE, log 20), where R86 and R110 make it a counted store that
is decided when it is applied. -/
def Says.TracedStores : Prop :=
  ∀ (s : State) (i : Issue) (d a : BitVec 7) (m : BitVec 11) (pa : Nat) (leaf : W64) (tr : Trace), s.issue = some i → i.unheld →
    i.path.lanes = 1#32 → i.active = [0] → (i.thread 0).hasHandler → i.reads [d, a] →
    let va := i.val 0 a + m.signExtend 64
    let g := va.toNat % 2 ^ 56 / 64
    va.toNat % 8 = 0 → isRemote pa = false → s.translate i.team.core i.team.ctx va .store = .ok pa leaf →
    pteTracked leaf = true → s.trace? i.team.ctx = some tr → tr.state ≠ .released → tr.state ≠ .failed →
    (∀ x ∈ s.l2, x.poisoned = false) →
    let traps := fun (cause : Nat) (info : W64) => ∃ t, exec (.std d a m) s = .next t ∧ SameMemory s t ∧ t.traces = s.traces
      ∧ Entered t i 0 cause info i.path.prefixAddr
    (tr.launch ≠ i.team.launch → traps Cause.edit va)
    ∧ (tr.launch = i.team.launch → (s.core i.team.core).stores = [] → s.behindReads i [0] = false →
      let me := i.team.task
      let writer := (tr.writers.find? fun w => w.1 == g).map Prod.snd
      let takes := ∃ w n, writer = some w ∧ w ≠ me ∧ tr.node? me = some n
        ∧ (n.state = .reexec ∨ (n.state = .remarked ∧ n.rerun = true)) ∧ tr.descends w me = true
      let may := writer = none ∨ writer = some me ∨ takes
      let reads := fun r => r ∈ tr.readers ∧ r.key = .granule g ∧ r.task ≠ me
      let order := ∃ r, reads r ∧ tr.before r.task me = true ∧ r.admitted = false
      let granule := fun (t : State) => t.mem.readBytes (pa / 64 * 64) 64
      let marked := fun (x : NodeState) =>
        match x with
        | .live => NodeState.stale
        | .running | .reexec => .remarked
        | y => y
      (pteDerived leaf = false ∨ ¬may → traps Cause.traceconflict va)
      ∧ (pteDerived leaf = true → may → order → traps Cause.traceorder (((BitVec.ofNat 50 g) ++ 0#6 : BitVec 56).signExtend 64))
      ∧ (pteDerived leaf = true → may → ¬order → tr.room 0 16 = true → s.Canonical →
        ∃ t tr', exec (.std d a m) s = .next t ∧ SameRegs s t ∧ Quiet s t ∧ Stored s t pa (bytesOfNat 8 (i.val 0 d).toNat)
          ∧ t.trace? i.team.ctx = some tr' ∧ tr'.state = tr.state ∧ tr'.readers = tr.readers
          ∧ (∀ h, (tr'.writers.find? fun w => w.1 == h).map Prod.snd
              = if h = g then some me else (tr.writers.find? fun w => w.1 == h).map Prod.snd)
          ∧ ∀ q n n', tr.node? q = some n → tr'.node? q = some n' → q ≠ me →
              ((granule t ≠ granule s ∧ ∃ r, reads r ∧ r.task = q) ∨ (takes ∧ writer = some q) → n'.state = marked n.state)
              ∧ (¬(granule t ≠ granule s ∧ ∃ r, reads r ∧ r.task = q) → ¬(takes ∧ writer = some q) → n'.state = n.state)))

/-- R108, R109, R111 and R112, for one thread's LDD, with recording on, of a tracked granule of its launch's acting trace
that its gang's filter lacks: where an earlier task wrote the granule and is not LIVE the path parks until it is; where a
later one did, and no DONE admits the read, it raises TRACEORDER; otherwise the load binds to the granule's contents at
once, past the L1, and the read is appended to the task's node and registered. A load that the filter holds is not
appended. That such a load binds in the step that issues it is the model's reading (DEDUCED, log 19). -/
def Says.TracedReads : Prop :=
  ∀ (s : State) (i : Issue) (d a : BitVec 7) (m : BitVec 11) (pa : Nat) (leaf : W64) (tr : Trace), s.issue = some i → i.unheld →
    s.calm i.cursor.team → i.path.lanes = 1#32 → i.active = [0] → (i.thread 0).hasHandler → (i.thread 0).recording = true →
    i.writes d → i.reads [a] →
    let va := i.val 0 a + m.signExtend 64
    let g := va.toNat % 2 ^ 56 / 64
    va.toNat % 8 = 0 → isRemote pa = false → s.translate i.team.core i.team.ctx va .load = .ok pa leaf →
    pteTracked leaf = true → s.trace? i.team.ctx = some tr → tr.state ≠ .released → tr.state ≠ .failed →
    tr.launch = i.team.launch → (∀ x ∈ s.l2, x.poisoned = false) → (s.core i.team.core).clean →
    let me := i.team.task
    let writer := (tr.writers.find? fun w => w.1 == g).map Prod.snd
    let filtered := ReadKey.granule g ∈ i.gang.filter
    let by' := fun (w : Node) => ∃ q, writer = some q ∧ tr.node? q = some w ∧ w.task ≠ me ∧ pteDerived leaf = true
    let later := fun (w : Node) => by' w ∧ tr.before w.task me = false
    let admits := fun (w : Node) => ∃ n ∈ w.fulfilled, n ∈ (i.thread 0).claimsDone
    let waits := ∃ w, by' w ∧ tr.before w.task me = true ∧ w.state ≠ .live
    let order := ∃ w, later w ∧ ¬admits w
    let ready := s.behind i [0] = false
      ∧ s.pendsBefore i.team.core i.cursor.team i.cursor.gang 0 (i.thread 0).memSeq pa 8 true = false
    (waits → ∃ t, exec (.ldd d a m) s = .next t ∧ SameRegs s t ∧ Kept s t ∧ t.ops = s.ops ∧ t.traces = s.traces
      ∧ t.path? i.cursor = none ∧ ∀ th, t.thread? i.cursor.team i.cursor.gang 0 = some th →
          th.blocked = .writer i.team.ctx g ∧ th.resume = some { word := i.path.prefixAddr, header := i.path.header })
    ∧ (order → filtered ∨ ready → ∃ t, exec (.ldd d a m) s = .next t ∧ SameMemory s t ∧ t.ops = s.ops ∧ t.traces = s.traces
      ∧ Entered t i 0 Cause.traceorder (((BitVec.ofNat 50 g) ++ 0#6 : BitVec 56).signExtend 64) i.path.prefixAddr)
    ∧ (¬waits → ¬order → filtered → ∃ t, exec (.ldd d a m) s = .next t ∧ SameRegs s t ∧ Kept s t ∧ t.traces = s.traces
      ∧ Issued s t i fun _ k => ∃ r : LoadReq, k = .load r ∧ r.pa = pa ∧ r.dest = (i.lane 0).dest d)
    ∧ (¬waits → ¬order → ¬filtered → ready → tr.room 8 16 = true →
      ∃ t tr', exec (.ldd d a m) s = .next t ∧ SameRegs s t ∧ Kept s t
        ∧ (Issued s t i fun _ k => ∃ r : LoadReq, k = .load r ∧ r.pa = pa ∧ r.dest = (i.lane 0).dest d
            ∧ r.bound = some (BitVec.ofNat 64 (s.mem.readNat pa 8)))
        ∧ t.trace? i.team.ctx = some tr' ∧ tr'.writers = tr.writers
        ∧ (∃ r ∈ tr'.readers, r.key = .granule g ∧ r.task = me ∧ ((∃ w, later w) → r.admitted = true))
        ∧ (∀ n n', tr.node? me = some n → tr'.node? me = some n' →
            n'.reads ++ n'.newReads = n.reads ++ n.newReads ++ [.granule g]
            ∨ n'.reads ++ n'.newReads = n.reads ++ [.granule g] ++ n.newReads)
        ∧ ∀ x, t.gang? i.cursor.team i.cursor.gang = some x → ReadKey.granule g ∈ x.filter)

/-! ## Atomics -/

/-- R92, R211 to R213: outside DET, an atomic or CAS issues one operation for each active thread, with its operands as
read, and removes its sector from the core's L1; a reduction enters the store path. No register changes. -/
def Says.AtomicWords : Prop :=
  ∀ (s : State) (i : Issue) (o : BitVec 4) (d a b : BitVec 7) (w : BitVec 1), s.issue = some i → s.calm i.cursor.team →
    i.unheld → i.launch.det = false → i.reads [a, b] →
    let addr := fun l => i.val l a
    let asks := fun (x : Instr) (n : Nat) (act : Nat → Nat → SyncAct) =>
      ∀ pa : Nat → Nat, s.reaches i .atomic n addr pa →
        ∃ t, exec x s = .next t ∧ SameRegs s t ∧ Kept s t ∧ Issued s t i (fun l k => k = .atomic (act l (pa l)))
          ∧ ∀ y ∈ (t.core i.team.core).l1, ∀ l ∈ i.active, y.sector ≠ pa l / 64
    (i.writes d →
      asks (.atom o d a b) 8 (fun l pa => .atomic o.toNat 8 (addr l) pa (i.val l b) ((i.lane l).dest d))
      ∧ asks (.atomw o d a b) 4 (fun l pa => .atomic o.toNat 4 (addr l) pa (i.val l b) ((i.lane l).dest d))
      ∧ ((∀ l ∈ i.active, (i.lane l).readable b 2) →
        let n := if w = 1#1 then 4 else 8
        asks (.cas w d a b) n fun l pa =>
          .cas n (addr l) pa (i.val l b) (i.val l (if b = 112#7 then b else b + 1#7)) ((i.lane l).dest d)))
    ∧ ∀ pa : Nat → Nat, s.reaches i .store (if w = 1#1 then 4 else 8) addr pa →
        let n := if w = 1#1 then 4 else 8
        ∃ t, exec (.atred o w a b) s = .next t ∧ SameRegs s t ∧ Kept s t
          ∧ Queued s t i (fun l => (l, pa l, bytesOfNat n (i.val l b).toNat, .reduce o.toNat))
          ∧ ∀ y ∈ (t.core i.team.core).l1, ∀ l ∈ i.active, y.sector ≠ pa l / 64

/-- Table 9.3: the new value of each atomic operation, and the flags that it raises. -/
def Says.AtomicValues : Prop :=
  ∀ n : Nat, n = 4 ∨ n = 8 → ∀ x y : BitVec (8 * n),
    let gives := fun (o : Nat) (v : BitVec (8 * n)) =>
      atomicNew o n x.toNat y.toNat = { value := v.toNat, sat := false, fp := 0#5 }
    let clamps := fun (o : Nat) (u : BitVec 1) =>
      let z := number u x + number u y
      atomicNew o n x.toNat y.toNat =
        { value := (BitVec.ofInt (8 * n) (clampTo u (8 * n) z)).toNat, sat := decide (clampTo u (8 * n) z ≠ z), fp := 0#5 }
    let f := if n = 8 then f64 else f32
    let rounds := fun (o : Nat) (r : FpResult) =>
      atomicNew o n x.toNat y.toNat = { value := r.bits, sat := false, fp := r.flags }
    gives 0 (x + y) ∧ gives 1 (x &&& y) ∧ gives 2 (x ||| y) ∧ gives 3 (x ^^^ y)
    ∧ gives 4 (if y.slt x then y else x) ∧ gives 5 (if x.slt y then y else x)
    ∧ gives 6 (if y.ult x then y else x) ∧ gives 7 (if x.ult y then y else x)
    ∧ gives 8 y
    ∧ gives 9 (if y.ule x then 0#(8 * n) else x + 1#(8 * n))
    ∧ gives 10 (if x = 0#(8 * n) ∨ y.ult x then y else x - 1#(8 * n))
    ∧ clamps 11 0#1 ∧ clamps 12 1#1
    ∧ rounds 13 (f.add .rne (f.decode x.toNat) (f.decode y.toNat))
    ∧ rounds 14 (minMaxElem f false false x.toNat y.toNat)
    ∧ rounds 15 (minMaxElem f true false x.toNat y.toNat)

/-- R92, R101, R211 to R213, R303: a pending atomic reads its bytes and writes its new value in one step, and no other
byte; a CAS whose comparison fails writes nothing. Once performed it gives its thread the old value and ORs its flags,
or nothing where the thread has exited or its team is killed. Stated of an atomic before which nothing comes: no read or
access to its bytes of its thread, no lower lane, and no store that a release or an acquire puts before it. -/
def Says.AtomicCompletion : Prop :=
  ∀ (s : State) (o : Op), s.op? o.uid = some o →
    (∀ d old sat fp, o.kind = .returned d old sat fp →
      ∃ t, exec (.atomicComplete o.uid) s = .next t ∧ Kept s t ∧ Ended s t o
        ∧ OneBecomes s t o.team o.gang o.lane fun r =>
            if o.live = true then
              let q := r.put d (BitVec.ofNat 64 old)
              { q with satf := q.satf || sat, fp := q.fp ||| fp }
            else r)
    ∧ ∀ pa n, isRemote pa = false → s.poisonedAt pa n = false → s.Canonical → (n = 4 ∨ n = 8) →
      let old := s.mem.readNat pa n
      let performs := fun (a : SyncAct) (v : Option AtomicValue) =>
        s.atomicWaits o a = false →
        ∃ t, exec (.atomicComplete o.uid) s = .next t ∧ SameRegs s t ∧ Quiet s t
          ∧ match v with
            | none => SameMemory s t ∧ t.op? o.uid = some { o with kind := .returned a.dest old false 0#5 }
            | some v => Stored s t pa (bytesOfNat n v.value)
                ∧ t.op? o.uid = some { o with kind := .returned a.dest old v.sat v.fp }
      (∀ op va v d, o.kind = .atomic (.atomic op n va pa v d) →
        performs (.atomic op n va pa v d) (some (atomicNew op n old (v.toNat % 2 ^ (8 * n)))))
      ∧ ∀ va e v d, o.kind = .atomic (.cas n va pa e v d) →
        performs (.cas n va pa e v d)
          (if old = e.toNat % 2 ^ (8 * n) then some { value := v.toNat % 2 ^ (8 * n), sat := false, fp := 0#5 } else none)

/-- R86, R87, R138, R207: a pending load of device memory takes the bytes at its home where its thread has no store
under way and nothing comes before it, and then writes them to its register, zero- or sign-extended, and nothing else. -/
def Says.LoadCompletion : Prop :=
  ∀ (s : State) (o : Op) (r : LoadReq), s.op? o.uid = some o → o.kind = .load r →
    (∀ v, r.bound = some v →
      ∃ t, exec (.loadComplete o.uid) s = .next t ∧ Kept s t ∧ Ended s t o
        ∧ OneBecomes s t o.team o.gang o.lane fun x => if o.live = true then x.put r.dest v else x)
    ∧ (r.bound = none → isRemote r.pa = false → 0 < r.size →
        s.loadWaits o r = false → (r.allocate = true ∨ (s.core o.core).l1Find (r.pa / 64) = none) →
        s.storing o.core o.team o.gang o.lane = false → s.poisonedAt r.pa r.size = false →
        ∃ t, exec (.loadComplete o.uid) s = .next t ∧ SameRegs s t ∧ Kept s t
          ∧ t.op? o.uid = some { o with
              kind := .load { r with bound := some (loadValue r.size r.signExtend (s.mem.readBytes r.pa r.size)) } })
    ∧ ∀ (n : Nat) (sx : Bool) (bs : List Byte), (n = 1 ∨ n = 2 ∨ n = 4 ∨ n = 8) → bs.length = n →
        loadValue n sx bs = if sx then BitVec.ofInt 64 ((BitVec.ofNat (8 * n) (natOfBytes bs)).toInt)
          else BitVec.ofNat 64 (natOfBytes bs)

/-- R86, R87, R89: an entry of a core's store path reaches its home once its thread's earlier reads have bound and no
entry comes before it: its bytes are written, or its reduction is performed, and no other byte changes. It then leaves the
path, whatever older entries stand there, and its gang's unacknowledged count falls by one. An entry for the system window
leaves for its target. Which older entries an entry comes behind (those to a byte of its own, and those that its thread
has released), and that an entry with older ones still in the path leaves the L1 without its sector, are the model's
reading (DEDUCED, log 20). -/
def Says.StoreCompletion : Prop :=
  ∀ (s : State) (core : Nat) (pre post : List StoreOp) (x : StoreOp), (s.core core).stores = pre ++ x :: post →
    ((s.core core).stores.map StoreOp.uid).Nodup → x.command = none → x.deferred = false → x.sent = false →
    s.storeWaits core x = false →
    (isRemote x.pa = false → s.Canonical →
      let ends := fun bs => ∃ t, exec (.storeAcknowledge ⟨core, x.uid⟩) s = .next t ∧ SameRegs s t ∧ Quiet s t ∧ Stored s t x.pa bs
        ∧ (t.core core).stores = pre ++ post
        ∧ ∀ g, s.gang? x.team x.countGang = some g → ∀ g', t.gang? x.team x.countGang = some g' → g'.unacked = g.unacked - 1
      (x.kind = .plain ∨ (∃ ctx, x.kind = .edit ctx) → ends x.data)
      ∧ ∀ op, x.kind = .reduce op → (x.data.length = 4 ∨ x.data.length = 8) → s.poisonedAt x.pa x.data.length = false →
          ends (bytesOfNat x.data.length
            (atomicNew op x.data.length (s.mem.readNat x.pa x.data.length) (natOfBytes x.data)).value))
    ∧ (isRemote x.pa = true → ∃ t r, exec (.storeAcknowledge ⟨core, x.uid⟩) s = .next t ∧ SameRegs s t ∧ Kept s t
        ∧ (t.core core).stores = pre ++ { x with sent := true } :: post ∧ t.remotes = s.remotes ++ [r]
        ∧ r.pa = x.pa ∧ r.store = some (core, x.uid))

/-! ## Waits -/

/-- R215: outside DET, WAITF makes each active thread wait; an observation of its location gives it the value there and
ends its wait where the condition holds, and otherwise leaves it waiting for the next write. -/
def Says.WaitOnMemory : Prop :=
  (∀ (s : State) (i : Issue) (c : BitVec 2) (d a b : BitVec 7) (pa : Nat → Nat), s.issue = some i →
    s.calm i.cursor.team → i.unheld → i.launch.det = false → i.writes d → i.reads [a, b] →
    s.reaches i .load 8 (fun l => i.val l a) pa →
    ∃ t, exec (.waitf c d a b) s = .next t ∧ SameRegs s t ∧ Kept s t
      ∧ ∀ l ∈ i.active, ∀ th, t.thread? i.cursor.team i.cursor.gang l = some th →
          th.blocked = .waitf c (i.val l a) (pa l) (i.val l b) ((i.lane l).dest d) true i.path.prefixAddr)
  ∧ ∀ (s : State) (u g l : Nat) (tm : Team) (th : Thread) (c : BitVec 2) (va b pc : W64) (pa : Nat) (d : Dest),
      s.team? u = some tm → s.thread? u g l = some th → th.blocked = .waitf c va pa b d true pc → tm.state = .running →
      s.detLaunch tm.launch = false → s.watching u g l = false → s.observes tm.core u g l pa = true →
      isRemote pa = false → s.poisonedAt pa 8 = false →
      let v : W64 := BitVec.ofNat 64 (s.mem.readNat pa 8)
      let holds := match c with
        | 0#2 => v = b
        | 1#2 => v ≠ b
        | 2#2 => b.toNat ≤ v.toNat
        | _ => v.toNat < b.toNat
      ∃ t, exec (.waitfObservation u g l) s = .next t ∧ Kept s t
        ∧ (holds → OneBecomes s t u g l fun r => r.put d v)
        ∧ (¬holds → SameRegs s t)
        ∧ ∀ th', t.thread? u g l = some th' →
            (holds → th'.blocked = .none) ∧ (¬holds → th'.blocked = .waitf c va pa b d false pc)

/-- R214 and Table 4.2: a fence changes no register; at device or system scope an acquire invalidates the core's L1, and
a release with stores under way holds its threads' later stores: while the gang's stores are not acknowledged, a store,
reduction or atomic of such a thread keeps its path at the word; a kind or scope of 3 raises ILLEGAL. -/
def Says.Fences : Prop :=
  ∀ (s : State) (i : Issue) (scope kind : BitVec 2), s.issue = some i → i.gang.tx = none →
    (scope ≠ 3#2 → kind ≠ 3#2 →
      (kind ≠ 1#2 → ∀ l ∈ i.active, s.readsBound i.cursor.team i.cursor.gang l = true) →
      ∃ t, exec (.fence scope kind) s = .next t ∧ SameRegs s t ∧ Kept s t
        ∧ (i.active ≠ [] → scope ≠ 0#2 → kind ≠ 1#2 → (t.core i.team.core).l1 = [])
        ∧ (s.calm i.cursor.team → scope ≠ 0#2 → kind ≠ 0#2 → i.gang.unacked ≠ 0 → ∀ l ∈ i.active, ∀ th,
            t.thread? i.cursor.team i.cursor.gang l = some th → th.relHold = true))
    ∧ (i.replays = false → i.team.kill = none → i.gang.unacked ≠ 0 → (∃ l ∈ i.active, (i.thread l).relHold = true) →
        ∀ (d a b : BitVec 7) (m : BitVec 11) (o : BitVec 4) (e : BitVec 2), i.reads [d, a, b] → i.writes d →
        let held := fun (w : Instr) (need : Need) (n : Nat) (addr : Nat → W64) => ∀ pa : Nat → Nat, s.reaches i need n addr pa →
          ∃ t, exec w s = .next t ∧ SameRegs s t ∧ Kept s t ∧ t.ops = s.ops ∧ t.cores = s.cores
            ∧ t.path? i.cursor = some { i.path with held := true }
        let offset := fun l => i.val l a + m.signExtend 64
        held (.std d a m) .store 8 offset ∧ held (.stw d a m) .store 4 offset ∧ held (.sth d a m) .store 2 offset
        ∧ held (.stb d a m) .store 1 offset ∧ held (.stx e d a b) .store (2 ^ e.toNat) (fun l => i.val l a + i.val l b)
        ∧ held (.atred o 0#1 a b) .store 8 (fun l => i.val l a) ∧ held (.atom o d a b) .atomic 8 fun l => i.val l a)
    ∧ (scope = 3#2 ∨ kind = 3#2 → i.replays = false → ∀ l ∈ i.active, (i.thread l).hasHandler →
        ∃ t, exec (.fence scope kind) s = .next t ∧ Entered t i l Cause.illegal (i.word.setWidth 64) i.path.prefixAddr)

/-- R216, R217: the arrivals of BARS and BARA count, in ascending lanes, towards episodes of the expected count; a thread
of BARS, or of BARW after an arrival, waits while its episode is not complete; BARI sets the expected count. Stated
outside DET and transactions, where the arriving threads' reads have bound; no register changes. -/
def Says.Barriers : Prop :=
  ∀ (s : State) (i : Issue) (k : BitVec 10) (a : BitVec 7) (b : Barrier), s.issue = some i → s.calm i.cursor.team → i.free →
    i.replays = false → i.gang.tx = none → i.launch.det = false → i.team.barriers[k.toNat]? = some b →
    let runs := fun (w : Instr) (b' : Barrier) (p : Nat → Nat → Thread → Prop) =>
      ∃ t u, exec w s = .next t ∧ SameRegs s t ∧ SameMemory s t ∧ SameMasks s t ∧ SameAudit s t ∧ SameTraps s t
        ∧ t.team? i.cursor.team = some u
        ∧ (∃ m, b.mark ≤ m ∧ u.holdings = { i.team.holdings with barriers := i.team.barriers.set k.toNat { b' with mark := m } })
        ∧ ∀ j l, i.active[j]? = some l → ∀ th, t.thread? i.cursor.team i.cursor.gang l = some th → p j l th
    let count := i.active.length
    let mine := fun j => b.episode + (b.arrivals + j) / b.expected
    let after : Barrier :=
      { b with arrivals := (b.arrivals + count) % b.expected, episode := b.episode + (b.arrivals + count) / b.expected }
    (b.arrivals < b.expected → s.behindReads i i.active = false →
      runs (.bars k) after (fun j _ th => th.mine k.toNat = some (mine j)
        ∧ th.blocked = if after.episode ≤ mine j then .barrier k.toNat (mine j) else .none)
      ∧ runs (.bara k) after (fun j _ th => th.mine k.toNat = some (mine j) ∧ th.blocked = .none))
    ∧ (b.expected = 0 → s.behindReads i i.active = false →
      ∀ l ∈ i.active, (i.thread l).hasHandler → ∀ w, (w = .bars k ∨ w = .bara k) →
        ∃ t, exec w s = .next t ∧ Entered t i l Cause.barrier (k.setWidth 64) i.path.prefixAddr)
    ∧ ((∀ l ∈ i.active, s.readsBound i.cursor.team i.cursor.gang l = true) →
      runs (.barw k) b fun _ l th => th.blocked =
        match (i.thread l).mine k.toNat with
        | some e => if b.episode ≤ e then .barrier k.toNat e else .none
        | none => .none)
    ∧ (b.arrivals = 0 → i.reads [a] → ∀ l, i.active.getLast? = some l → 1 ≤ (i.val l a).toNat → (i.val l a).toNat ≤ 512 →
      runs (.bari a k) { b with expected := (i.val l a).toNat } fun _ _ th => th.blocked = .none)

/-- R218: outside DET, a GBAR by threads of a root team of a COOP launch arrives; when every other thread of the root
teams has arrived or exited the episode is complete, and otherwise its threads wait. In another launch, or by another
task, it raises BARRIER. That the root teams are those that have neither ended nor been killed is the model's reading
(DEDUCED, log 23). -/
def Says.GridBarrier : Prop :=
  ∀ (s : State) (i : Issue), s.issue = some i → i.replays = false → i.gang.tx = none →
    (i.launch.coop = true → i.task.parent = none → i.launch.det = false → i.gang.unacked = 0 → s.calm i.cursor.team →
      i.free → i.active ≠ [] → i.team.kill = none →
      s.behind i i.active = false →
      (∀ l ∈ i.active, s.readsBound i.cursor.team i.cursor.gang l = true ∧ l < i.gang.threads.length
        ∧ (i.thread l).gbarArrival ≠ some i.launch.gbarEpisode) →
      let all := ∀ u ∈ s.rootTeams i.launch.uid, ∀ k g, u.gangs[k]? = some g → ∀ l th, g.threads[l]? = some th →
        th.exited = true ∨ th.gbarArrival = some i.launch.gbarEpisode
          ∨ (u.uid = i.cursor.team ∧ k = i.cursor.gang ∧ l ∈ i.active)
      ∃ t la, exec .gbar s = .next t ∧ SameRegs s t ∧ Kept s t ∧ t.launch? i.launch.uid = some la
        ∧ (all → la.gbarEpisode = i.launch.gbarEpisode + 1)
        ∧ (¬all → la.gbarEpisode = i.launch.gbarEpisode)
        ∧ ∀ l ∈ i.active, ∀ th, t.thread? i.cursor.team i.cursor.gang l = some th →
            (all → th.blocked = .none) ∧ (¬all → th.blocked = .gbar i.launch.gbarEpisode))
    ∧ (i.launch.coop = false ∨ i.task.parent ≠ none → ∀ l ∈ i.active, (i.thread l).hasHandler →
        ∃ t, exec .gbar s = .next t ∧ Entered t i l Cause.barrier 0#64 i.path.prefixAddr)

/-! ## Engine commands -/

/-- R94, R221 to R223: STQ gives a queue register the value of the highest active lane; GO takes one ticket of a context
for a valid command, captures the queue registers and gives every active thread the ticket; TLRD reads a timeline counter;
TLWAIT makes those threads wait whose count it has not reached, and is an acquire for the others: that it invalidates the
core's L1 for them is the model's choice (DESIGN CHOICE, log 21), where Table 4.3 names only the mechanism of R94. -/
def Obligations.EngineWords : Prop :=
  ∀ (s : State) (i : Issue) (d a c : BitVec 7) (k : BitVec 4) (q : BitVec 2) (x : Timeline), s.issue = some i →
    let holds := fun (t : State) (h : Holdings) => SameMemory s t ∧ SameMasks s t ∧ SameAudit s t ∧ SameTraps s t
      ∧ (t.team? i.cursor.team).map Team.holdings = some h
      ∧ ∀ u, u ≠ i.cursor.team → (t.team? u).map Team.holdings = (s.team? u).map Team.holdings
    let h := i.team.holdings
    (i.reads [a] → ∀ l, i.active.getLast? = some l →
      ∃ t, exec (.stq q a) s = .next t ∧ SameRegs s t ∧ holds t { h with queueRegs := h.queueRegs.set q.toNat (i.val l a) })
    ∧ (i.unheld → s.calm i.cursor.team → i.active ≠ [] → i.writes d → i.team.timelines[c.toNat]? = some x →
      s.behindReads i i.active = false → ∀ gather : Bool,
      let q' := fun n => i.team.queueRegs.getD n 0#64
      validateCommand gather (q' 0) (q' 1) (q' 2) (q' 3) = none →
      ∃ t u uid, exec (if gather then .goGather d c else .goCopy d c) s = .next t
        ∧ (RegsBecome s t i fun _ r => r.set d (BitVec.ofNat 64 (x.issued + 1)))
        ∧ holds t { h with timelines := h.timelines.set c.toNat { x with issued := x.issued + 1 } }
        ∧ t.team? i.cursor.team = some u
        ∧ u.commands = i.team.commands ++ [({
            uid, gang := i.cursor.gang, ctx := c.toNat, ticket := x.issued + 1, gather, q0 := q' 0, q1 := q' 1, q2 := q' 2,
            q3 := q' 3, state := .queued, elements := 0, fetched := [], kept := []
            after := (i.active.map fun l => (i.thread l).seen).foldl max 0 } : Command)])
    ∧ (i.team.timelines[k.toNat]? = some x → i.replays = false →
      (i.writes d → ∃ t, exec (.tlrd k d) s = .next t ∧ OnlyRegs s t i fun _ r => r.set d (BitVec.ofNat 64 x.counter))
      ∧ (i.reads [a] → s.calm i.cursor.team → i.free →
        s.behindReads i i.active = false →
        ∃ t, exec (.tlwait k a) s = .next t ∧ SameRegs s t ∧ Kept s t
          ∧ ((∃ l ∈ i.active, (i.val l a).toNat ≤ x.counter) → (t.core i.team.core).l1 = [])
          ∧ ∀ l ∈ i.active, ∀ th, t.thread? i.cursor.team i.cursor.gang l = some th →
              th.blocked = if x.counter < (i.val l a).toNat then .tlwait k.toNat (i.val l a) else .none))

/-- R226, R228, R321: which copy and gather commands are valid. -/
def Says.CommandChecks : Prop :=
  ∀ q0 q1 q2 q3 : W64,
    let rb := (q0.extractLsb' 0 20).toNat
    let e := 2 ^ (q0.extractLsb' 26 2).toNat
    let op := (q0.extractLsb' 28 4).toNat
    let rows := (q3.extractLsb' 48 16).toNat + 1
    let ds := (q3.extractLsb' 0 24).toNat
    (validateCommand false q0 q1 q2 q3 = none ↔
      op ≤ 5 ∧ q0.extractLsb' 20 4 = 0#4 ∧ rb ≠ 0
      ∧ (op = 1 ∨ op = 2 ∨ op = 3 ∨ op = 5 → rb % e = 0 ∧ ds % e = 0 ∧ q1.toNat % e = 0 ∧ q2.toNat % e = 0)
      ∧ ((op = 0 ∨ op = 1) → 1 < rows → rb ≤ ds) ∧ (op = 1 → rb ≤ ds)
      ∧ (op = 2 → q1 = 0#64 ∧ q0.getLsbD 25 = false)
      ∧ (op = 4 ∨ op = 5 → ds = 0 ∧ q2.toNat % 64 = 0)
      ∧ (op = 4 → e = 1)
      ∧ (q0.getLsbD 25 = true → q1.toNat < 2 ^ 20) ∧ (q0.getLsbD 24 = true → q2.toNat < 2 ^ 20))
    ∧ (validateCommand true q0 q1 q2 q3 = none ↔
      let count := (q0.extractLsb' 20 20).toNat
      let idx := (q0.extractLsb' 0 20).toNat
      let kind := (q3.extractLsb' 2 2).toNat
      let x := if kind = 1 then 8 else 4
      let g := 2 ^ (q3.extractLsb' 0 2).toNat
      q0.extractLsb' 40 24 = 0#24 ∧ q2.extractLsb' 20 44 = 0#44 ∧ q3.extractLsb' 10 54 = 0#54
      ∧ kind ≠ 3 ∧ count ≠ 0 ∧ idx % x = 0 ∧ q2.toNat % g = 0
      ∧ idx + count * x ≤ 2 ^ 20 ∧ q2.toNat + count * g ≤ 2 ^ 20)

/-- R227: the bytes that a valid copy command writes, and the source byte or pad byte that each receives. -/
def Says.CopyLayout : Prop :=
  ∀ q0 q1 q2 q3 : W64, validateCommand false q0 q1 q2 q3 = none →
    let rb := (q0.extractLsb' 0 20).toNat
    let e := 2 ^ (q0.extractLsb' 26 2).toNat
    let rows := (q3.extractLsb' 48 16).toNat + 1
    let ds := (q3.extractLsb' 0 24).toNat
    let ss := (q3.extractLsb' 24 24).toNat
    let from' := fun i c : Nat => q1 + BitVec.ofNat 64 (i * ss + c)
    let at' := fun n : Nat => q2 + BitVec.ofNat 64 n
    let pad := fun k : Nat => (q0.extractLsb' (32 + 8 * (k % 4)) 8 : Byte)
    let writes := fun (dst : W64) (src : W64 ⊕ Byte) => ∃ c ∈ copyChunks q0 q1 q2 q3, ∃ k : Nat,
      c.bytes[k]? = some src ∧ dst = c.dst + BitVec.ofNat 64 k
    ∀ dst src, writes dst src ↔
      match (q0.extractLsb' 28 4).toNat with
      | 0 => ∃ i < rows, ∃ c < rb, dst = at' (i * ds + c) ∧ src = .inl (from' i c)
      | 1 => ∃ i < rows, ∃ c < ds, dst = at' (i * ds + c) ∧ src = if c < rb then .inl (from' i c) else .inr (pad (c % e))
      | 2 => ∃ i < rows, ∃ c < rb, dst = at' (i * ds + c) ∧ src = .inr (pad (c % e))
      | 3 => ∃ i < rows, ∃ k < rb / e, ∃ b < e, dst = at' (k * ds + i * e + b) ∧ src = .inl (from' i (k * e + b))
      | 4 =>
        let nr := (rows + 15) / 16
        let nc := (rb + 47) / 48
        ∃ u < nr, ∃ v < nc, ∃ r < 16, ∃ c < 48, dst = at' (768 * (u * nc + v) + 48 * r + c)
          ∧ src = if 16 * u + r < rows ∧ 48 * v + c < rb then .inl (from' (16 * u + r) (48 * v + c)) else .inr (pad 0)
      | _ =>
        let nr := (rb / e + 15) / 16
        let nc := (rows * e + 47) / 48
        ∃ u < nr, ∃ v < nc, ∃ r < 16, ∃ c < 48, dst = at' (768 * (u * nc + v) + 48 * r + c)
          ∧ src = if 16 * u + r < rb / e ∧ 48 * v + c < rows * e then
              .inl (from' ((48 * v + c) / e) ((16 * u + r) * e + c % e)) else .inr (pad (c % e))

/-- R94, R227: an engine command starts once its gang's stores are acknowledged, and those that its threads had seen are
applied. A running copy or fill makes one or more of its elements, each byte that CopyLayout gives it from its source:
scratch, or device memory as it stands. Bytes for scratch are written there, and no other byte of scratch changes; bytes
for memory enter the core's store path, an aligned element of 1, 2, 4 or 8 bytes as one store, others byte by byte. No
register changes, and no memory until those stores arrive; a command to scratch whose last element is made lets its
timeline counter pass its ticket. Stated of commands that read no byte that they write, of pages that the TLB holds and
that are not tracked. That the elements are made in ascending order, one or more in a step, is the model's choice where
R228 allows any order (DESIGN CHOICE, log 35). That a COPY runs where
its rows are not aligned to the element is the model's reading (DEDUCED, log 35), and that an element which is not aligned
goes byte by byte is its choice (DESIGN CHOICE, log 35). -/
def Says.CopyTransfers : Prop :=
  (∀ (s : State) (r : EngineRun) (g : Gang), s.command? r.cmd.uid = some r → r.cmd.state = .queued →
    r.team.gangs[r.cmd.gang]? = some g → g.unacked = 0 → s.applied r.team.core r.cmd.after = true → s.team? r.team.uid = some r.team →
    ∃ t u c, exec (.engineCommandStart r.cmd.uid) s = .next t ∧ SameRegs s t ∧ Kept s t
      ∧ t.team? r.team.uid = some u ∧ u.commands.find? (fun c => c.uid == r.cmd.uid) = some c
      ∧ c = { r.cmd with state := .running })
  ∧ ∀ (s : State) (r : EngineRun) (pa pa' : W64 → Nat), s.command? r.cmd.uid = some r → s.team? r.team.uid = some r.team →
      r.cmd.state = .running → r.cmd.gather = false → r.cmd.kept = [] → r.team.state ≠ .replay → r.team.scratch.wf = true →
      s.commandStores r.team.core r.cmd.uid = false →
      let q0 := r.cmd.q0
      let op := (q0.extractLsb' 28 4).toNat
      let e := 2 ^ (q0.extractLsb' 26 2).toNat
      let chunks := copyChunks q0 r.cmd.q1 r.cmd.q2 r.cmd.q3
      let size := 16384 * r.team.scratchUnits
      let fromScratch := q0.getLsbD 25 = true
      let toScratch := q0.getLsbD 24 = true
      let maps := fun (a : W64) (n : Need) (p : Nat) => ∃ leaf, s.translate r.team.core r.team.ctx a n = .ok p leaf ∧ pteTracked leaf = false
      r.cmd.elements < chunks.length → (∀ c ∈ chunks, r.overlapping s c = []) →
      (∀ c ∈ chunks, ∀ a, c.bytes.head? = some (.inl a) → op = 1 ∨ op = 3 ∨ op = 5 → a.toNat % e = 0) →
      (∀ c ∈ chunks, ∀ a, .inl a ∈ c.bytes →
        (fromScratch → a.toNat < size ∧ r.team.unlogged a.toNat 1
          ∧ (toScratch → ∀ c' ∈ chunks, a.toNat < c'.dst.toNat ∨ c'.dst.toNat + c'.bytes.length ≤ a.toNat))
        ∧ (¬fromScratch → maps a .load (pa a) ∧ isRemote (pa a) = false ∧ s.poisonedAt (pa a) 1 = false)) →
      (∀ c ∈ chunks, (toScratch → c.dst.toNat + c.bytes.length ≤ size)
        ∧ (¬toScratch → ∀ k < c.bytes.length, let a := c.dst + BitVec.ofNat 64 k
            maps a .store (pa' a) ∧ (isRemote (pa' a) = true → s.target (pa' a) ≠ .unused))) →
      let data := fun (c : Chunk) => c.bytes.map fun b =>
        match b with
        | .inl a => if q0.getLsbD 25 then r.team.scratch.read a.toNat else s.mem.read (pa a)
        | .inr p => p
      let entries := fun (c : Chunk) =>
        let one := fun (a : W64) (bs : List Byte) => (some r.cmd.uid, pa' a, bs, StoreKind.plain)
        let n := c.bytes.length
        if (n = 1 ∨ n = 2 ∨ n = 4 ∨ n = 8) ∧ c.dst.toNat % n = 0 then [one c.dst (data c)]
        else (data c).zipIdx.map fun x => one (c.dst + BitVec.ofNat 64 x.2) [x.1]
      ∃ t u n, exec (.copyCommandComplete r.cmd.uid) s = .next t ∧ SameRegs s t ∧ SameMemory s t ∧ SameMasks s t
        ∧ SameAudit s t ∧ SameTraps s t ∧ t.team? r.team.uid = some u
        ∧ 1 ≤ n ∧ r.cmd.elements + n ≤ chunks.length
        ∧ (let made := (chunks.drop r.cmd.elements).take n
          (toScratch → u.scratch = made.foldl (fun m c => m.writeBytes c.dst.toNat (data c)) r.team.scratch
            ∧ (t.core r.team.core).stores = (s.core r.team.core).stores)
          ∧ (¬toScratch → SameHoldings s t
            ∧ (t.core r.team.core).stores.map (fun x => (x.command, x.pa, x.data, x.kind))
              = (s.core r.team.core).stores.map (fun x => (x.command, x.pa, x.data, x.kind)) ++ made.flatMap entries))
        ∧ (r.cmd.elements + n < chunks.length → ∃ c, u.commands.find? (fun c => c.uid == r.cmd.uid) = some c
            ∧ c.state = .running ∧ c.elements = r.cmd.elements + n)
        ∧ (r.cmd.elements + n = chunks.length → ¬toScratch →
            ∃ c, u.commands.find? (fun c => c.uid == r.cmd.uid) = some c ∧ c.state = .written)
        ∧ (r.cmd.elements + n = chunks.length → toScratch → ∀ x, r.team.timelines[r.cmd.ctx]? = some x →
            r.cmd.ticket = x.counter + 1 → ∀ y, u.timelines[r.cmd.ctx]? = some y → r.cmd.ticket ≤ y.counter)

/-- R228: a running gather from device memory makes one or more of its elements, in order (DESIGN CHOICE, log 35): element i goes from
base + index i shifted left, to its place in scratch; no other byte of scratch, no register and no memory changes. -/
def Says.GatherCommands : Prop :=
  ∀ (s : State) (r : EngineRun) (pa : Nat → Nat), s.command? r.cmd.uid = some r → s.team? r.team.uid = some r.team →
    r.cmd.state = .running → r.cmd.gather = true → r.cmd.kept = [] → r.team.state ≠ .replay → r.team.scratch.wf = true →
    validateCommand true r.cmd.q0 r.cmd.q1 r.cmd.q2 r.cmd.q3 = none →
    s.commandStores r.team.core r.cmd.uid = false →
    let kind := (r.cmd.q3.extractLsb' 2 2).toNat
    let x := if kind = 1 then 8 else 4
    let e := 2 ^ (r.cmd.q3.extractLsb' 0 2).toNat
    let shift := (r.cmd.q3.extractLsb' 4 6).toNat
    let count := (r.cmd.q0.extractLsb' 20 20).toNat
    let idx := (r.cmd.q0.extractLsb' 0 20).toNat
    let dst := r.cmd.q2.toNat
    let size := 16384 * r.team.scratchUnits
    let index := fun i : Nat =>
      let v := r.team.scratch.readNat (idx + i * x) x
      if kind = 2 then (BitVec.ofNat 32 v).signExtend 64 else BitVec.ofNat 64 v
    let address := fun i : Nat => r.cmd.q1 + (index i <<< shift)
    r.cmd.elements < count → idx + count * x ≤ size → dst + count * e ≤ size →
    (idx + count * x ≤ dst ∨ dst + count * e ≤ idx) → r.team.unlogged idx (count * x) →
    (∀ i < count, (address i).toNat % e = 0 ∧ isRemote (pa i) = false ∧ ∀ b < e, s.poisonedAt (pa i + b) 1 = false
      ∧ ∃ leaf, s.translate r.team.core r.team.ctx (address i + BitVec.ofNat 64 b) .load = .ok (pa i + b) leaf
        ∧ pteTracked leaf = false ∧ isRemote (pa i + b) = false) →
    ∃ t u n, exec (.gatherCommandComplete r.cmd.uid) s = .next t ∧ SameRegs s t ∧ SameMemory s t ∧ SameMasks s t
      ∧ SameAudit s t ∧ SameTraps s t ∧ t.team? r.team.uid = some u
      ∧ 1 ≤ n ∧ r.cmd.elements + n ≤ count
      ∧ (∀ i < count, ∀ b < e, u.scratch.read (dst + i * e + b) =
          if r.cmd.elements ≤ i ∧ i < r.cmd.elements + n then s.mem.read (pa i + b) else r.team.scratch.read (dst + i * e + b))
      ∧ (∀ a, (a < dst ∨ dst + count * e ≤ a) → u.scratch.read a = r.team.scratch.read a)

/-! ## Transactions -/

/-- R219, R220 and Tables 9.7 and 9.8: TXB opens a transaction of its active threads, or dooms the open one with code 9;
TXA ends it with code 4 and a user code; TXS reads its status; TXC, outside DET, sends its log or aborts it with code 8,
and each of its threads has to come the status of its transaction, be it an earlier one of the gang, or code 7. -/
def Says.TransactionWords : Prop :=
  ∀ (s : State) (i : Issue) (d a : BitVec 7), s.issue = some i → s.calm i.cursor.team → i.active ≠ [] →
    i.replays = false → i.gang.txSent = false →
    let word := fun (x : Tx) (state code : Nat) =>
      (BitVec.ofNat 64 (code + (if code = 4 then 256 * x.user.toNat else 0) + 2 ^ 16 * state + 2 ^ 32 * x.reads.length
        + 2 ^ 48 * x.writes.length) : W64)
    let ends := fun (t : State) (x : Option Tx) => Kept s t
      ∧ ∀ g, t.gang? i.cursor.team i.cursor.gang = some g → g.tx = x
    let idle := i.gang.tx = none ∨ ∃ x, i.gang.tx = some x ∧ x.ended ≠ none
    let fresh : Tx :=
      { members := maskOf i.active, reads := [], writes := [], laneWrites := [], commit := .validating false [], doom := none
        user := 0#8, sent := false, ended := none }
    let late := fun l => ((i.gang.lateTx.find? fun x => x.1 == l).map Prod.snd).getD 7#64
    (i.cursor.gang + 1 ≤ i.team.scratchUnits →
      (idle → ∃ t, exec .txb s = .next t ∧ SameRegs s t ∧ ends t (some fresh)
        ∧ ∀ x v l g, i.gang.tx = some x → x.ended = some v → l < 32 → x.members.getLsbD l = true → l ∉ i.active →
            t.gang? i.cursor.team i.cursor.gang = some g → (g.lateTx.find? fun y => y.1 == l).map Prod.snd = some v)
      ∧ ∀ x, i.gang.tx = some x → x.ended = none →
          ∃ t, exec .txb s = .next t ∧ SameRegs s t ∧ ends t (some { x with doom := some (x.doom.getD 9) }))
    ∧ (i.reads [a] → ∀ l, i.active.head? = some l →
      (idle → ∃ t, exec (.txa a) s = .next t ∧ SameRegs s t ∧ ends t i.gang.tx)
      ∧ ∀ x, i.gang.tx = some x → x.ended = none →
          let y := { x with user := (i.val l a).setWidth 8 }
          ∃ t, exec (.txa a) s = .next t ∧ SameRegs s t ∧ ends t (some { y with ended := some (word y 0 4) }))
    ∧ (i.writes d →
      let v := match i.gang.tx with
        | none => 0#64
        | some x =>
          match x.ended, x.doom with
          | some v, _ => v ||| 0x30000#64
          | none, none => word x 1 0
          | none, some c => word x 2 c
      ∃ t, exec (.txs d) s = .next t ∧ OnlyRegs s t i (fun _ r => r.set d v) ∧ ends t i.gang.tx)
    ∧ (i.writes d → i.launch.det = false →
      (∀ x, i.gang.tx = some x → x.ended = none → (∃ l ∈ i.active, x.members.getLsbD l = true) →
        i.gang.unacked = 0 ∧ s.behind i i.active = false
          ∧ ∀ l ∈ i.active, s.readsBound i.cursor.team i.cursor.gang l = true) →
      let whole := fun x : Tx => x.members &&& i.gang.live &&& ~~~i.path.lanes = 0#32
      ∃ t, exec (.txc d) s = .next t ∧ SameRegs s t ∧ Kept s t ∧ Issued s t i fun l k =>
        match i.gang.tx with
        | none => k = .txc ((i.lane l).dest d) (some (late l))
        | some x =>
          if x.members.getLsbD l = false then k = .txc ((i.lane l).dest d) (some (late l))
          else match x.ended with
            | some v => k = .txc ((i.lane l).dest d) (some v)
            | none => (whole x → k = .txc ((i.lane l).dest d) none)
              ∧ (¬whole x → k = .txc ((i.lane l).dest d) (some (word x 0 8))))

/-- R96, R220, R330: a commit validates its log as one step: where no doom stands, no sector is poisoned and every
logged read still matches, its writes reach device memory under their masks, and no other byte changes; otherwise memory
stays. Each thread's status is then delivered to its register. Stated of logs that name no system window. -/
def Says.Commits : Prop :=
  ∀ (s : State) (o : Op) (d : Dest), s.op? o.uid = some o →
    (∀ v, o.kind = .txc d (some v) → ∃ t, exec (.txcComplete o.uid) s = .next t ∧ Kept s t ∧ Ended s t o
      ∧ OneBecomes s t o.team o.gang o.lane fun r => if o.live = true then r.put d v else r)
    ∧ ∀ g x, o.kind = .txc d none → s.gang? o.team o.gang = some g → g.tx = some x → x.ended = none →
        x.members.getLsbD o.lane = true → s.Canonical → (∃ a vs, x.commit = .validating a vs) →
        s.txAwaits o.team o.gang = false → (∀ r ∈ x.reads, isRemote r.1 = false) → (∀ w ∈ x.writes, isRemote w.1 = false) →
        let poisoned := (∃ r ∈ x.reads, s.poisonedAt r.1 8 = true) ∨ ∃ w ∈ x.writes, s.poisonedAt w.1 8 = true
        let matched := ∀ r ∈ x.reads, s.mem.readNat r.1 8 = r.2.toNat
        let status := fun c : Nat => (BitVec.ofNat 64 (c + (if c = 4 then 256 * x.user.toNat else 0)
          + 2 ^ 32 * x.reads.length + 2 ^ 48 * x.writes.length) : W64)
        ∃ (t : State) (c : Nat), exec (.txcComplete o.uid) s = .next t ∧ SameRegs s t ∧ Quiet s t
          ∧ t.op? o.uid = some { o with kind := .txc d (some (status c)) }
          ∧ (∀ n, x.doom = some n → c = n)
          ∧ (x.doom = none → (poisoned → c = 10) ∧ (¬poisoned → matched → c = 0) ∧ (¬poisoned → ¬matched → c = 1))
          ∧ (c ≠ 0 → SameMemory s t)
          ∧ (c = 0 → (x.writes.map Prod.fst).Nodup → (∀ w ∈ x.writes, w.1 % 8 = 0) →
            (∀ u, s.team? o.team = some u → (t.core u.core).l1 = [])
            ∧ ∀ b, t.mem.read b =
                match x.writes.find? fun w => w.1 == b / 8 * 8 && w.2.2.2.getLsbD (b % 8) with
                | some w => w.2.2.1.extractLsb' (8 * (b % 8)) 8
                | none => s.mem.read b)

/-- R96, R219: within an open transaction, a member's load outside its own private memory takes the logged bytes of its
doubleword, or its home's, which it then logs, beneath what its thread has itself written; where the log of 512 reads is
full it dooms the transaction with code 2. Its store goes into the log, one entry for each doubleword, with its bytes and
their mask, and stays out of memory; one that needs a 257th entry dooms the transaction with code 3 and logs nothing.
Stated of one thread, device memory and pages that are not tracked. -/
def Says.TransactionalAccesses : Prop :=
  ∀ (s : State) (i : Issue) (d a : BitVec 7) (m : BitVec 11) (pa : Nat) (leaf : W64) (x : Tx), s.issue = some i →
    s.calm i.cursor.team → i.replays = false → i.team.kill = none → (i.gang.unacked = 0 ∨ (i.thread 0).relHold = false) →
    i.path.lanes = 1#32 → i.active = [0] → i.gang.tx = some x → x.ended = none → x.sent = false → x.members.getLsbD 0 = true →
    let va := i.val 0 a + m.signExtend 64
    let dw := pa / 8 * 8
    inPrivate i.team (i.thread 0) va = false → isRemote pa = false → pteTracked leaf = false →
    let logs := fun (t : State) (p : Tx → Prop) => ∀ g, t.gang? i.cursor.team i.cursor.gang = some g → ∃ y, g.tx = some y ∧ p y
    let byte := fun (v : W64) (k : Nat) => (v.extractLsb' (8 * k) 8 : Byte)
    let loads := fun (w : Instr) (n : Nat) => va.toNat % n = 0 → s.translate i.team.core i.team.ctx va .load = .ok pa leaf →
      i.writes d → i.reads [a] → s.poisonedAt pa n = false → s.behind i [0] = false →
      s.pendsBefore i.team.core i.cursor.team i.cursor.gang 0 (i.thread 0).memSeq pa n true = false →
      let logged := (x.reads.find? fun r => r.1 == dw).map Prod.snd
      let base := logged.getD (BitVec.ofNat 64 (s.mem.readNat dw 8))
      let seen := fun k => match x.laneWrites.find? fun y => y.1 == 0 && y.2.1 == dw with
        | some (_, _, v, mask) => if mask.getLsbD k then byte v k else byte base k
        | none => byte base k
      ∃ t, exec w s = .next t ∧ SameRegs s t ∧ Kept s t
        ∧ (Issued s t i fun _ k => ∃ r : LoadReq, k = .load r ∧ r.dest = (i.lane 0).dest d
            ∧ r.bound = some (loadValue n false ((List.range n).map fun k => seen (pa % 8 + k))))
        ∧ logs t fun y => y = if logged ≠ none then x else if x.reads.length < 512 then { x with reads := x.reads ++ [(dw, base)] }
            else { x with doom := some (x.doom.getD 2) }
    let stores := fun (w : Instr) (n : Nat) => va.toNat % n = 0 → s.translate i.team.core i.team.ctx va .store = .ok pa leaf →
      i.reads [d, a] →
      let old := x.writes.find? fun y => y.1 == dw
      let hit := fun k => pa % 8 ≤ k ∧ k < pa % 8 + n
      let given := fun k => byte (i.val 0 d) (k - pa % 8)
      let before := fun (e : Option (W64 × BitVec 8)) (k : Nat) => (e.map fun y => byte y.1 k, (e.map fun y => y.2.getLsbD k).getD false)
      let laid := fun (e : Option (W64 × BitVec 8)) (v : W64) (mask : BitVec 8) => ∀ k < 8,
        (hit k → mask.getLsbD k = true ∧ byte v k = given k)
        ∧ (¬hit k → mask.getLsbD k = (before e k).2 ∧ ∀ b, (before e k).1 = some b → byte v k = b)
      ∃ t, exec w s = .next t ∧ SameRegs s t ∧ Kept s t ∧ t.ops = s.ops ∧ (t.core i.team.core).stores = (s.core i.team.core).stores
        ∧ (old = none → 256 ≤ x.writes.length → logs t fun y => y = { x with doom := some (x.doom.getD 3) })
        ∧ (old ≠ none ∨ x.writes.length < 256 → logs t fun y =>
            y = { x with writes := y.writes, laneWrites := y.laneWrites }
            ∧ y.writes.map Prod.fst = x.writes.map Prod.fst ++ (if old = none then [dw] else [])
            ∧ (∀ e, e.1 ≠ dw → (e ∈ y.writes ↔ e ∈ x.writes))
            ∧ (∃ u v mask, y.writes.find? (fun e => e.1 == dw) = some (dw, u, v, mask) ∧ laid (old.map fun e => e.2.2) v mask
              ∧ (old = none → u = BitVec.ofNat 64 (va.toNat / 8 * 8)))
            ∧ (∀ e, ¬(e.1 = 0 ∧ e.2.1 = dw) → (e ∈ y.laneWrites ↔ e ∈ x.laneWrites))
            ∧ ∃ v mask, y.laneWrites.find? (fun e => e.1 == 0 && e.2.1 == dw) = some (0, dw, v, mask)
              ∧ laid ((x.laneWrites.find? fun e => e.1 == 0 && e.2.1 == dw).map fun e => e.2.2) v mask)
    loads (.ldd d a m) 8 ∧ loads (.ldw d a m) 4 ∧ loads (.ldh d a m) 2 ∧ loads (.ldb d a m) 1
    ∧ stores (.std d a m) 8 ∧ stores (.stw d a m) 4 ∧ stores (.sth d a m) 2 ∧ stores (.stb d a m) 1

/-- R219: the words that a member of an open transaction does not perform: each dooms it with code 5, unless it is doomed
already, and does nothing else. -/
def Says.DoomingWords : Prop :=
  ∀ (s : State) (i : Issue) (x : Tx) (d a b : BitVec 7) (m : BitVec 11) (o : BitVec 4) (k : BitVec 10) (z n : BitVec 1)
    (c f : BitVec 2), s.issue = some i → s.calm i.cursor.team → i.replays = false → i.active ≠ [] → i.gang.tx = some x →
    x.ended = none → x.sent = false → (∀ l ∈ i.active, x.members.getLsbD l = true) →
    let dooms := fun (w : Instr) => ∃ t, exec w s = .next t ∧ SameRegs s t ∧ Kept s t ∧ t.ops = s.ops ∧ t.tasks = s.tasks
      ∧ t.claims = s.claims ∧ t.props = s.props ∧ (∀ c, (t.core c).stores = (s.core c).stores)
      ∧ ∀ g, t.gang? i.cursor.team i.cursor.gang = some g → g.tx = some { x with doom := some (x.doom.getD 5) }
    let runs := fun (r : BitVec 7) (n : Nat) => ∀ l ∈ i.active, (i.lane l).readable r n
    let bars := k.toNat < i.team.barriers.length
    (i.writes d → i.reads [a, b] →
      dooms (.atom o d a b) ∧ dooms (.atomw o d a b) ∧ dooms (.waitf c d a b) ∧ dooms (.propagate n d a b))
    ∧ (i.writes d → i.reads [a] → runs b 2 → dooms (.cas z d a b) ∧ dooms (.spawn d a b) ∧ (runs a 2 → dooms (.spawnr d a b)))
    ∧ (i.reads [a, b] → dooms (.atred o z a b))
    ∧ (f ≠ 3#2 → c ≠ 3#2 → dooms (.fence f c))
    ∧ (bars → dooms (.bars k) ∧ dooms (.bara k) ∧ dooms (.barw k) ∧ (i.reads [a] → dooms (.bari a k)))
    ∧ dooms .gbar
    ∧ (i.writes d → a.toNat < i.team.timelines.length → dooms (.goCopy d a) ∧ dooms (.goGather d a))
    ∧ (i.writes d → i.reads [a] → dooms (.tail d a))
    ∧ ((∀ l ∈ i.active, (i.lane l).writable d 2) → runs a 2 → dooms (.claim n d a))
    ∧ (runs a 2 → i.reads [b] → dooms (.fulfil a b) ∧ dooms (.relinq a) ∧ dooms (.forget a))
    ∧ (i.reads [d, a] → dooms (.edit d a m))

/-! ## Tasks -/

/-- R39, R45, R106, R107, R244 to R247: outside DET and traces, SPAWN reads a valid descriptor for each active thread and
makes a task of it, with its place, key and share of the parent's weight; SPAWNR takes a ticket and a packet that carries
the descriptor: that it stands in the payload's first 64 bytes is log 47 (DESIGN CHOICE). No register or memory changes. -/
def Says.Spawns : Prop :=
  ∀ (s : State) (i : Issue) (d a b : BitVec 7), s.issue = some i → s.calm i.cursor.team → i.unheld → i.launch.det = false →
    i.gang.unacked = 0 → s.behind i i.active = false → s.traced? i.team.ctx i.team.launch i.team.task = none → i.writes d →
    (∀ l ∈ i.active, s.readsBound i.cursor.team i.cursor.gang l = true ∧ (i.lane l).readable b 2) →
    let reg := fun (f : BitVec 7) (k : Nat) => if f = 112#7 then f else f + BitVec.ofNat 7 k
    let found := fun (addr : Nat → W64) (pa : Nat → Nat) (desc : Nat → Desc) =>
      s.reaches i .load 64 addr pa ∧ ∀ l ∈ i.active, isRemote (pa l) = false ∧ s.poisonedAt (pa l) 64 = false
        ∧ desc l = descOf (s.mem.readBytes (pa l) 64) ∧ (desc l).mbz = 0#512 ∧ (desc l).faults = []
    (∀ (pa : Nat → Nat) (desc : Nat → Desc), i.reads [a] → found (fun l => i.val l a) pa desc →
      (∀ l ∈ i.active, (desc l).exceeds s i.launch = false) →
      let place := fun j : Nat => i.task.position ++ [[i.task.spawnIndex + j + 1, 0]]
      ∃ t, exec (.spawn d a b) s = .next t ∧ SameRegs s t ∧ Kept s t
        ∧ (Issued s t i fun l k => ∃ v, k = .spawn ((i.lane l).dest d) v
            ∧ (i.launch.traced = false → v = 0#64))
        ∧ t.tasks.length = s.tasks.length + i.active.length
        ∧ (∀ k, t.task? i.task.uid = some k → k.spawnIndex = i.task.spawnIndex + i.active.length)
        ∧ ∀ j l, i.active[j]? = some l → ∃ k ∈ t.tasks, k.parent = some i.task.uid ∧ k.launch = i.task.launch
            ∧ k.desc = desc l ∧ k.descAddr = i.val l a ∧ k.position = place j ∧ k.state = .waiting
            ∧ (if b = 112#7 then k.positional = true ∧ k.key = BitVec.ofNat 128 (i.task.spawnIndex + j)
              else k.positional = false ∧ k.key = i.val l (reg b 1) ++ i.val l b)
            ∧ (i.active = [l] → k.weight = if 2 ≤ i.task.weight then i.task.weight / 2 else 2 ^ 40))
    ∧ ∀ (pa : Nat → Nat) (desc : Nat → Desc), (∀ l ∈ i.active, (i.lane l).readable a 2 ∧ (i.val l a).toNat < 2 ^ 48) →
        found (fun l => i.val l (reg a 1)) pa desc →
        ∃ t, exec (.spawnr d a b) s = .next t ∧ SameRegs s t ∧ Kept s t ∧ t.tasks.length = s.tasks.length
          ∧ (Issued s t i fun l k => ∃ j p, i.active[j]? = some l
              ∧ k = .spawnr ((i.lane l).dest d) (BitVec.ofNat 64 (i.launch.sendCount + j + 1)) (some p)
              ∧ p.kind = 3 ∧ p.dst = (i.val l a).toNat % 2 ^ 14 ∧ p.addr = i.val l a
              ∧ p.payload.take 64 = bytesOfNat 64 (desc l).toNat)
          ∧ ∀ la, t.launch? i.launch.uid = some la → la.sendCount = i.launch.sendCount + i.active.length

/-- R39: a holder of weight gives half of it to a child; one with less than 2 gives 2^40 that it does not have, and the
launch's debt grows by one. -/
def Says.WeightDealt : Prop :=
  ∀ w : Nat, (dealt w).1 + (dealt w).2.1 = w + (dealt w).2.2 * 2 ^ 40
    ∧ (2 ≤ w → (dealt w).1 = w / 2 ∧ (dealt w).2.2 = 0) ∧ (w < 2 → (dealt w).1 = 2 ^ 40 ∧ (dealt w).2.2 = 1)

/-- R248: TAIL gives each active thread the next number of its launch's tails and records the address; in a re-execution
it gives 0 and records nothing. -/
def Says.Tails : Prop :=
  ∀ (s : State) (i : Issue) (d a : BitVec 7), s.issue = some i → i.replays = false → i.gang.tx = none → i.writes d → i.reads [a] →
    (∀ l ∈ i.active, (i.val l a).toNat % 256 = 0) →
    ∃ t, exec (.tail d a) s = .next t ∧ Kept s t
      ∧ (i.task.reexec = true → (RegsBecome s t i fun _ r => r.set d 0#64) ∧ t.launches = s.launches)
      ∧ (i.task.reexec = false →
        (RegsBecome s t i fun l r => r.set d (BitVec.ofNat 64 (i.launch.tailCount + (i.below l).length + 1)))
        ∧ ∀ la, t.launch? i.launch.uid = some la → la.tailCount = i.launch.tailCount + i.active.length
          ∧ la.tails.map (fun x => x.2.2) = i.launch.tails.map (fun x => x.2.2) ++ i.active.map fun l => i.val l a)

/-! ## Claims -/

/-- R125 to R127, R249 and Table 5.11: outside DET, a CLAIM issues one operation for each active thread, and changes no
register. Of a name that is ABSENT it makes its task the maker (code 1); of a DONE entry it takes the handle (code 0); of
an entry that another task makes it waits in the entry's queue, or has code 3 if it does not block. A re-execution takes
over a DONE entry that its descendant wrote (R129). A traced thread whose read of a DONE entry finds no room in the trace
store raises TRACEFULL (R332). -/
def Says.ClaimWords : Prop :=
  ∀ (s : State) (i : Issue) (n : BitVec 1) (d a : BitVec 7), s.issue = some i → s.calm i.cursor.team → i.replays = false →
    i.gang.tx = none → i.launch.det = false → (∀ l ∈ i.active, (i.lane l).writable d 2 ∧ (i.lane l).readable a 2) →
    let name := fun l => (i.val l (if a = 112#7 then a else a + 1#7) ++ i.val l a : BitVec 128)
    let asks := fun (l : Nat) (r : Option (Nat × W64)) (k : OpKind) => k = .claim (name l) ((i.lane l).dest d)
      ((i.lane l).dest (if d = 112#7 then d else d + 1#7)) r
    let untraced := ∀ l ∈ i.active, s.traced? i.team.ctx i.team.launch i.team.task = none ∨ (i.thread l).recording = false
    (untraced → ∃ t, exec (.claim n d a) s = .next t ∧ SameRegs s t ∧ Kept s t ∧ (Issued s t i fun l k => ∃ r, asks l r k))
    ∧ (∀ l v, i.active = [l] → (i.thread l).hasHandler → s.claimLack i.team i.cursor.gang (i.thread l) (name l) = some v →
        ∃ t, exec (.claim n d a) s = .next t ∧ Entered t i l Cause.tracefull (BitVec.ofNat 64 v) i.path.prefixAddr)
    ∧ ∀ l, i.active = [l] → untraced →
        let gives := fun (r : Option (Nat × W64)) (p : State → Claim → Prop) =>
          ∃ t e, exec (.claim n d a) s = .next t ∧ (Issued s t i fun l k => asks l r k)
            ∧ t.claim? (name l) = some e ∧ p t e
        match s.claim? (name l) with
        | none => (s.claimsOf (caddyHome (name l))).length < 131072 + s.backingEntries / 4 →
            gives (some (1, 0#64)) fun _ e => e.maker = some i.task.uid ∧ e.queue = [] ∧ e.handle = none
        | some e =>
          match e.maker with
          | none =>
            (s.mayTakeOver i.task.uid e.writer = false → gives (some (0, e.handle.getD 0#64)) fun _ e' =>
              e' = { e with lastUse := e'.lastUse, backed := false })
            ∧ (s.mayTakeOver i.task.uid e.writer = true → gives (some (1, 0#64)) fun _ e' =>
              e'.maker = some i.task.uid ∧ e'.oldHandle = e.handle ∧ e'.handle = none ∧ e'.queue = e.queue)
          | some m =>
            if m = i.task.uid then gives (some (1, 0#64)) fun _ e' => e' = { e with lastUse := e'.lastUse, backed := false }
            else if n = 1#1 then gives (some (3, 0#64)) fun _ e' => e' = { e with lastUse := e'.lastUse, backed := false }
            else gives none fun t e' => ∃ op, e'.queue = e.queue ++ [{ op, team := i.cursor.team, task := i.task.uid }]
              ∧ e'.maker = some m ∧ (i.free → i.path.pos + 1 < i.path.words.length → i.path.rep = none →
                ∀ th, t.thread? i.cursor.team i.cursor.gang l = some th → th.atRetire = .claim op)

/-- R127, R250 and Table 5.11: FULFIL by an entry's maker makes it DONE with the handle of the lowest lane that names it;
RELINQ by its maker hands it to the oldest waiter, or it becomes ABSENT; FORGET removes a DONE entry that no trace pins.
No register changes, and no other entry but that it may overflow to the backing area (R128); nor does memory, where no
trace acts or the word is FORGET. FULFIL by another task raises CLAIM. -/
def Says.EntryWords : Prop :=
  ∀ (s : State) (i : Issue) (a b : BitVec 7), s.issue = some i → i.replays = false → i.gang.tx = none →
    i.gang.unacked = 0 → s.behind i i.active = false → (∀ l ∈ i.active, (i.lane l).readable a 2
      ∧ s.readsBound i.cursor.team i.cursor.gang l = true) → i.reads [b] →
    let name := fun l => (i.val l (if a = 112#7 then a else a + 1#7) ++ i.val l a : BitVec 128)
    let runs := fun (w : Instr) (p : Nat → Option Claim → Prop) =>
      ∃ t, exec w s = .next t ∧ SameRegs s t ∧ Quiet s t
        ∧ ((w = .forget a ∨ ∀ x ∈ s.traces, x.acts = false) → SameMemory s t)
        ∧ (∀ m, (∀ l ∈ i.active, name l ≠ m) → (t.claim? m).map (fun e => { e with backed := false })
            = (s.claim? m).map fun e => { e with backed := false })
        ∧ ∀ l ∈ i.active, p l (t.claim? (name l))
    ((∀ l ∈ i.active, ∃ e, s.claim? (name l) = some e ∧ e.maker = some i.task.uid) →
      runs (.fulfil a b) (fun l e => ∃ e', e = some e' ∧ e'.maker = none ∧ e'.queue = []
        ∧ ∀ k ∈ i.active, name k = name l → (∀ j ∈ i.active, name j = name l → k ≤ j) → e'.handle = some (i.val k b))
      ∧ runs (.relinq a) (fun l e => ∃ e', s.claim? (name l) = some e' ∧ match e'.queue with
          | [] => e = none
          | w :: ws => ∃ e'', e = some e'' ∧ e''.maker = some w.task ∧ e''.queue = ws))
    ∧ ((∀ l ∈ i.active, s.pinned (name l) = false ∧ ∀ e, s.claim? (name l) = some e → e.maker = none) →
      runs (.forget a) fun _ e => e = none)
    ∧ ∀ l, i.active = [l] → (i.thread l).hasHandler → ∀ e, s.claim? (name l) = some e → e.maker ≠ some i.task.uid →
        ∃ t, exec (.fulfil a b) s = .next t
          ∧ Entered t i l Cause.claim (if e.maker = none then 2#64 else 1#64) i.path.prefixAddr

/-- R127, R249: a CLAIM's result reaches its thread, whose wait for it ends; DONE gives the handle and is an acquire. -/
def Says.ClaimDelivery : Prop :=
  ∀ (s : State) (o : Op) (u : Team) (name : BitVec 128) (d h : Dest) (code : Nat) (v : W64), s.op? o.uid = some o →
    s.team? o.team = some u → o.kind = .claim name d h (some (code, v)) → u.state ≠ .saved → s.detLaunch u.launch = false →
    ∃ t, exec (.claimResultDelivery o.uid) s = .next t ∧ Kept s t ∧ Ended s t o
      ∧ (OneBecomes s t o.team o.gang o.lane fun r => if o.live = true then
          (r.put d (BitVec.ofNat 64 code)).put h (if code = 0 then v else 0#64) else r)
      ∧ (code = 0 → o.live = true → (t.core u.core).l1 = [])
      ∧ ∀ th, t.thread? o.team o.gang o.lane = some th →
          th.blocked ≠ .claim o.uid ∧ th.atRetire ≠ .claim o.uid ∧ th.trapWait ≠ .claim o.uid

/-- R245, R247: the result of a SPAWN or SPAWNR reaches its register; the packet of a SPAWNR leaves by port 12. -/
def Says.SpawnCompletion : Prop :=
  ∀ (s : State) (o : Op) (d : Dest) (v : W64), s.op? o.uid = some o →
    let gives := fun r : Regs => if o.live = true then r.put d v else r
    (o.kind = .spawn d v → ∃ t, exec (.spawnComplete o.uid) s = .next t ∧ Kept s t ∧ Ended s t o
      ∧ OneBecomes s t o.team o.gang o.lane gives)
    ∧ ∀ p, o.kind = .spawnr d v (some p) → s.island.port12Up = true → s.island.state = .full →
        ∃ t, exec (.spawnrDeparture o.uid) s = .next t ∧ Kept s t ∧ Ended s t o
          ∧ OneBecomes s t o.team o.gang o.lane gives ∧ t.outPackets = s.outPackets ++ [p]

/-! ## Traces and re-execution -/

/-- R253 to R255: TRCON and TRCOFF switch the active threads' recording in a traced launch and do nothing in another;
TDIG gives the task's digest once its gang's stores are acknowledged, with those that the model keeps back (DESIGN CHOICE,
log 20); TSTAT gives the status of the issuing launch's
trace, or of that of a record address. -/
def Says.TraceWords : Prop :=
  ∀ (s : State) (i : Issue) (d a : BitVec 7), s.issue = some i →
    let records := fun (w : Instr) (on : Bool) => ∃ t, exec w s = .next t
      ∧ OnlyRegs s t i fun _ r => if i.launch.traced then { r with recording := on } else r
    let status := fun x : Option Trace =>
      match x with
      | none => 0xFF#64
      | some x => BitVec.ofNat 64 (x.state.code + 2 ^ 8 * min x.staleCount (2 ^ 24 - 1) + 2 ^ 32 * (x.propDone % 2 ^ 32))
    records .trcon true ∧ records .trcoff false
    ∧ (i.writes d → i.replays = false → i.gang.unacked = 0 →
      ∃ t, exec (.tdig d) s = .next t ∧ OnlyRegs s t i (fun _ r => r.set d (s.digestNow i))
        ∧ ((∀ x ∈ (s.core i.team.core).stores, x.deferred = false) → s.digestNow i = i.task.digest))
    ∧ (i.writes d → i.replays = false → i.reads [a] → ∃ t, exec (.tstat d a) s = .next t ∧ OnlyRegs s t i fun l r =>
        r.set d (status (if a = 112#7 then (s.trace? i.team.ctx).filter fun x => x.state != .released && x.launch == i.launch.uid
          else s.traceNamed? i.team.ctx (i.val l a))))

/-- R117, R251: EDIT is a store of 8 bytes, which its gang counts: on a page that no trace acts on a plain one, on a source
page of an acting trace of another launch an edit; on a derived page, and by a task of the trace, it raises EDIT. An edit
that reaches its home writes its bytes, and when the granule changes it marks its registered readers STALE. -/
def Obligations.Edits : Prop :=
  (∀ (s : State) (i : Issue) (d a : BitVec 7) (m : BitVec 11), s.issue = some i → i.unheld → i.reads [d, a] →
    let addr := fun l => i.val l a + m.signExtend 64
    let bytes := fun l => bytesOfNat 8 (i.val l d).toNat
    (∀ pa : Nat → Nat, s.finds i .store 8 addr pa →
      (∀ l ∈ i.active, ∀ leaf, s.translate i.team.core i.team.ctx (addr l) .store = .ok (pa l) leaf →
        pteTracked leaf = false ∨ s.actingTrace? i.team.ctx = none) →
      ∃ t, exec (.edit d a m) s = .next t ∧ SameRegs s t ∧ Kept s t ∧ Queued s t i fun l => (l, pa l, bytes l, .plain))
    ∧ (∀ (pa : Nat → Nat) (x : Trace), s.finds i .store 8 addr pa → s.actingTrace? i.team.ctx = some x →
      x.launch ≠ i.team.launch →
      (∀ l ∈ i.active, ∀ leaf, s.translate i.team.core i.team.ctx (addr l) .store = .ok (pa l) leaf →
        pteTracked leaf = true ∧ pteDerived leaf = false) →
      ∃ t, exec (.edit d a m) s = .next t ∧ SameRegs s t ∧ Kept s t
        ∧ Queued s t i fun l => (l, pa l, bytes l, .edit i.team.ctx))
    ∧ ∀ (l : Nat) (pa : Nat) (leaf : W64) (x : Trace), i.active = [l] → s.finds i .store 8 addr (fun _ => pa) →
        s.translate i.team.core i.team.ctx (addr l) .store = .ok pa leaf → pteTracked leaf = true →
        s.actingTrace? i.team.ctx = some x →
        (pteDerived leaf = true ∨ (s.traced? i.team.ctx i.team.launch i.team.task).isSome = true) → (i.thread l).hasHandler →
          ∃ t, exec (.edit d a m) s = .next t ∧ Entered t i l Cause.edit (addr l) i.path.prefixAddr)
  ∧ ∀ (s : State) (core ctx : Nat) (pre post : List StoreOp) (y : StoreOp) (x : Trace),
      (s.core core).stores = pre ++ y :: post → ((s.core core).stores.map StoreOp.uid).Nodup → y.command = none →
      y.deferred = false → y.sent = false → s.storeWaits core y = false → y.kind = .edit ctx → isRemote y.pa = false →
      s.Canonical → (∀ z ∈ s.l2, z.poisoned = false) → s.actingTrace? ctx = some x →
      ∃ t, exec (.storeAcknowledge ⟨core, y.uid⟩) s = .next t ∧ SameRegs s t ∧ Quiet s t ∧ Stored s t y.pa y.data
        ∧ ∀ r ∈ x.readers, r.key = .granule (y.va.extractLsb' 6 50).toNat →
            s.mem.readBytes (y.pa / 64 * 64) 64 ≠ t.mem.readBytes (y.pa / 64 * 64) 64 →
            ∀ n, x.node? r.task = some n → n.state = .live →
              ∃ z n', t.trace? ctx = some z ∧ z.node? r.task = some n' ∧ n'.state = .stale

/-- R119, R252 and Table 11.6: PROP of no live trace has code 1 and changes nothing else; of a READY trace with work to do
it starts a propagation, for which PROP's thread waits and whose number PROP.async gives; of a trace that records or
settles it waits. -/
def Obligations.Propagations : Prop :=
  ∀ (s : State) (i : Issue) (y : BitVec 1) (d a : BitVec 7), s.issue = some i → s.calm i.cursor.team →
    i.replays = false → i.gang.tx = none → i.gang.unacked = 0 →
    s.behind i i.active = false → (∀ l ∈ i.active, s.readsBound i.cursor.team i.cursor.gang l = true) →
    i.writes d → i.reads [a] →
    let word := Instr.propagate y d a 112#7
    ((∀ l ∈ i.active, s.traceNamed? i.team.ctx (i.val l a) = none) →
      ∃ t, exec word s = .next t ∧ OnlyRegs s t i fun _ r => r.set d (if y = 1#1 then 0#64 else 0xFF01#64))
    ∧ ∀ l x, i.active = [l] → s.traceNamed? i.team.ctx (i.val l a) = some x → x.launch ≠ i.team.launch →
        s.trace? i.team.ctx = some x →
        ((x.state = .recording ∨ x.state = .settling) →
          ∃ t r, exec word s = .next t ∧ SameRegs s t ∧ Kept s t ∧ t.props = s.props ++ [r] ∧ r.waitsForReady = true
            ∧ ∀ th, t.thread? i.cursor.team i.cursor.gang l = some th → th.blocked = .propagate r.uid)
        ∧ (x.state = .ready → (∃ n ∈ x.nodes, n.busy = true) → s.props = [] →
          ∃ t r z, exec word s = .next t ∧ SameMemory s t ∧ t.props = [r] ∧ r.waitsForReady = false
            ∧ t.trace? i.team.ctx = some z ∧ z.state = .propagating ∧ z.propNumber = x.propNumber + 1
            ∧ (if y = 1#1 then RegsBecome s t i fun _ q => q.set d (BitVec.ofNat 64 (x.propNumber + 1))
              else SameRegs s t ∧ ∀ th, t.thread? i.cursor.team i.cursor.gang l = some th → th.blocked = .propagate r.uid))

/-- R97, R256, R257: RBGIVE puts a run of registers of the active threads into an EMPTY slot, which lies in scratch, and
makes it FULL; RBTAKE of a FULL slot of that count gives each active thread its registers, or zeros where the block has
none, and makes it EMPTY. Otherwise the threads wait; and behind a release of a thread, whose earlier reads and stores
have yet to come about, both words keep their path at the word. RBTAKE of bytes in a log region that a transaction has
used is left out, as R219 gives that region no content. -/
def Obligations.RegisterBlocks : Prop :=
  ∀ (s : State) (i : Issue) (k f : BitVec 7) (n : BitVec 3), s.issue = some i → i.replays = false →
    i.gang.tx = none → k.toNat < 8 → i.team.scratchUnits ≠ 0 → i.team.blocks.length = 8 → i.active ≠ [] →
    let c := n.toNat + 1
    let place := fun l j : Nat => 2048 * k.toNat + 64 * l + 8 * j
    let reg := fun j : Nat => if f = 112#7 then f else f + BitVec.ofNat 7 j
    let h := i.team.holdings
    let released := fun l => s.applied i.team.core (i.thread l).relStore = true
      ∧ s.readsBoundBefore i.cursor.team i.cursor.gang l (i.thread l).relRead = true
      ∧ s.deferredBefore i.team.core i.cursor.team i.cursor.gang l (i.thread l).relRead = false
    ((∃ l ∈ i.active, ¬released l) → (∀ l ∈ i.active, (i.lane l).writable f c) →
      let waits := fun w : Instr => ∃ t, exec w s = .next t ∧ SameRegs s t ∧ Kept s t
        ∧ t.path? i.cursor = some { i.path with held := true }
      waits (.rbgive k f n) ∧ ((∀ b, i.team.blocks[k.toNat]? = some (some b) → b.count = c) → waits (.rbtake f k n)))
    ∧ ((∀ l ∈ i.active, released l) →
    ((∀ l ∈ i.active, (i.lane l).readable f c) → i.team.blocks[k.toNat]? = some none → i.team.scratch.wf = true →
      ∃ t u, exec (.rbgive k f n) s = .next t ∧ SameRegs s t ∧ SameMemory s t ∧ SameMasks s t ∧ SameAudit s t ∧ SameTraps s t
        ∧ t.team? i.cursor.team = some u
        ∧ { u.holdings with scratch := h.scratch }
            = { h with blocks := h.blocks.set k.toNat (some { lanes := maskOf i.active, count := c }) }
        ∧ (∀ l ∈ i.active, ∀ j < c, u.scratch.readNat (place l j) 8 = (i.val l (reg j)).toNat)
        ∧ ∀ x, (∀ l ∈ i.active, ∀ j < c, x < place l j ∨ place l j + 8 ≤ x) → u.scratch.read x = i.team.scratch.read x)
    ∧ (∀ b, (∀ l ∈ i.active, (i.lane l).writable f c) → i.team.blocks[k.toNat]? = some (some b) → b.count = c →
      (∀ l ∈ i.active, ∀ j < c, i.team.unlogged (place l j) 8) →
      ∃ t u, exec (.rbtake f k n) s = .next t ∧ SameMemory s t ∧ SameMasks s t ∧ SameAudit s t ∧ SameTraps s t
        ∧ (RegsBecome s t i fun l r => (List.range c).foldl (fun r j => r.set (reg j)
            (if b.lanes.getLsbD l then BitVec.ofNat 64 (i.team.scratch.readNat (place l j) 8) else 0#64)) r)
        ∧ t.team? i.cursor.team = some u ∧ u.holdings = { h with blocks := h.blocks.set k.toNat none })
    ∧ (s.calm i.cursor.team → (∀ l ∈ i.active, (i.lane l).writable f c) →
      (∀ b, i.team.blocks[k.toNat]? = some (some b) →
        ∃ t, exec (.rbgive k f n) s = .next t ∧ SameRegs s t ∧ Kept s t ∧ ∀ l ∈ lanesOf i.path.lanes, ∀ th,
          t.thread? i.cursor.team i.cursor.gang l = some th → th.blocked = .regBlock k.toNat true)
      ∧ (i.team.blocks[k.toNat]? = some none →
        ∃ t, exec (.rbtake f k n) s = .next t ∧ SameRegs s t ∧ Kept s t ∧ ∀ l ∈ lanesOf i.path.lanes, ∀ th,
          t.thread? i.cursor.team i.cursor.gang l = some th → th.blocked = .regBlock k.toNat false)))

/-! ## Matrix words -/

/-- R78, R231 to R238: an MMA whose checks pass issues one operation, which holds the rows of A from the registers of
gang 0, or of its A latch where that holds a run of that length, the columns of B from scratch and their scales, and
changes no register; with .reuse its rows stay in the latch, and otherwise the latch empties. -/
def Says.MatrixMultiply : Prop :=
  ∀ (s : State) (i : Issue) (o p z u : BitVec 1) (tl a b : BitVec 7) (k : Nat) (held : Option Latch), s.issue = some i →
    s.calm i.cursor.team → i.replays = false → i.uniform = true → i.gang.tx = none → i.gang.activeSlot = some k →
    (s.core i.team.core).latches[k]? = some held →
    a.toNat < 113 → (i.lane 0).readable b 1 →
    let cw := i.val 0 b
    let slotA := i.launch.slots.getD (cw.extractLsb' 24 3).toNat 0#64
    let slotB := i.launch.slots.getD (cw.extractLsb' 27 3).toNat 0#64
    let fa := (slotA.extractLsb' 0 4).toNat
    let fb := (slotB.extractLsb' 0 4).toNat
    let ty := (cw.extractLsb' 30 2).toNat
    let addr := (cw.extractLsb' 0 20).toNat
    let map := (cw.extractLsb' 32 24).toNat
    let bytes := slotWidth fa / 8
    let regScale := slotA.extractLsb' 4 2 = 1#2
    let run := (if p = 1#1 then 6 else 3) + if regScale then 1 else 0
    let mem := slotB.extractLsb' 4 2 = 1#2
    (p = 1#1 → i.launch.paired = true) → cw.extractLsb' 56 8 = 0#8 → cw.extractLsb' 20 4 = 0#4 → ty ≠ 3 →
    tl.toNat < i.team.accTiles → (ty = 1 → tl.toNat % 2 = 0 ∧ tl.toNat + 1 < i.team.accTiles) →
    ty = typeOfFormat fa → slotWidth fa = slotWidth fb → slotInteger fa = slotInteger fb →
    (if z = 1#1 then sparseLegal bytes (p == 1#1) map = true else map = 0) →
    (∀ l ∈ i.active, (i.lane l).readable a run) → addr % 64 = 0 →
    addr + (if mem then 784 else 768) ≤ 16384 * i.team.scratchUnits → i.team.unlogged addr 784 →
    (∀ q ∈ s.ops, q.team ≠ i.cursor.team) →
    let reg := fun q : Nat => if a = 112#7 then a else a + BitVec.ofNat 7 q
    let part := fun row q : Nat => bytesOfNat 8 (i.val (2 * (row % 16) + q / 3) (reg (3 * (row / 16) + q % 3))).toNat
    let row := fun r : Nat => (List.range 6).flatMap (part r)
    let rows := if p = 1#1 then 32 else 16
    let own : Latch := { run, rows := (List.range rows).map row, scales := if regScale then (List.range rows).map fun r =>
      (i.val (2 * (r % 16)) (reg (if p = 1#1 then 6 else 3))).extractLsb' (8 * (r / 16)) 8 else [] }
    let v := match held with
      | some x => if x.run = run then x else own
      | none => own
    ∃ t op m, exec (.mma o p z u tl a b) s = .next t ∧ SameRegs s t ∧ Kept s t ∧ t.ops = s.ops ++ [op] ∧ op.kind = .mma m
      ∧ op.team = i.cursor.team ∧ op.gang = i.cursor.gang ∧ op.core = i.team.core ∧ op.live = true ∧ op.flag = i.path.flag
      ∧ m.tile = tl.toNat ∧ m.accType = ty ∧ m.aFormat = fa ∧ m.bFormat = fb ∧ m.paired = (p == 1#1)
      ∧ m.overwrite = (o == 1#1) ∧ m.before = [] ∧ m.base = none ∧ m.aRows.length = v.rows.length
      ∧ (∀ r x, v.rows[r]? = some x → ∃ y, m.aRows[r]? = some y ∧ y.length = x.length ∧
          ∀ c < x.length, y.getD c 0#8 = if z = 1#1 ∧ marked map bytes r c = true then 0#8 else x.getD c 0#8)
      ∧ m.bCols = (List.range 16).map (fun j => i.team.scratch.readBytes (addr + 48 * j) 48)
      ∧ (slotA.extractLsb' 4 2 = 0#2 → m.aScales = List.replicate rows 127#8)
      ∧ (slotA.extractLsb' 4 2 = 2#2 → m.aScales = List.replicate rows (slotA.extractLsb' 12 8))
      ∧ (regScale → m.aScales = v.scales)
      ∧ (slotB.extractLsb' 4 2 = 0#2 → m.bScales = List.replicate 16 127#8)
      ∧ (slotB.extractLsb' 4 2 = 2#2 → m.bScales = List.replicate 16 (slotB.extractLsb' 12 8))
      ∧ (mem → m.bScales = i.team.scratch.readBytes (addr + 768) 16)
      ∧ (i.path.pos + 1 < i.path.words.length → (t.core i.team.core).latches[k]? = some (if u = 1#1 then some v else none))

/-- R229, R314: a matrix word of a path that lacks a lane, or of a gang but 0, raises CONVERGE in every thread of its
path; guarded off in every thread it does nothing. Stated of ACCZ. -/
def Says.MatrixUniform : Prop :=
  ∀ (s : State) (i : Issue) (f : BitVec 1) (tl n : BitVec 7), s.issue = some i → i.replays = false →
    (i.active ≠ [] → i.uniform = false → ∀ l ∈ lanesOf i.path.lanes, (i.thread l).hasHandler →
      ∃ t, exec (.accz f tl n) s = .next t ∧ Entered t i l Cause.converge (i.path.lanes.setWidth 64) i.path.prefixAddr)
    ∧ (i.active = [] → ∃ t, exec (.accz f tl n) s = .next t ∧ SameRegs s t ∧ Kept s t)

/-- R78: an element of a K-step with integer formats is the old value, or 0, plus the sum of the products, clamped to 32
bits once; with float formats and finite operands it is the exact sum of the old value and the products, rounded once to
nearest even. -/
def Says.MatrixElements : Prop :=
  ∀ (r : MmaReq) (i j old : Nat),
    let old' := if r.overwrite then 0 else old
    let row := r.aRows.getD i []
    let col := r.bCols.getD j []
    let n := slotWidth r.aFormat / 8
    let value := fun x : Fp =>
      match x with
      | .fin neg m e => (if neg then -1 else 1) * (m : ℚ) * (2 : ℚ) ^ e
      | _ => 0
    (slotInteger r.aFormat = true → slotWidth r.bFormat = slotWidth r.aFormat →
      let terms := (List.range (48 / n)).map fun k => slotInt r.aFormat (natOfBytes ((row.drop (n * k)).take n))
        * slotInt r.bFormat (natOfBytes ((col.drop (n * k)).take n))
      let exact := (BitVec.ofNat 32 old').toInt + terms.sum
      r.element i j old = { bits := (BitVec.ofInt 32 (clampTo 0#1 32 exact)).toNat, flags := 0#5,
                            sat := decide (clampTo 0#1 32 exact ≠ exact) })
    ∧ (slotInteger r.aFormat = false →
      let f := if r.accType = 1 then f64 else f32
      let xs := decodeRow r.aFormat (r.aScales.getD i 127#8) row
      let ys := decodeRow r.bFormat (r.bScales.getD j 127#8) col
      let finite := fun x : Fp => ∃ neg m e, x = .fin neg m e
      (∀ x ∈ xs ++ ys, finite x) → finite (f.decode old') →
      ∃ v q, r.element i j old = f.ofFp (Fp.ofInt v q) .rne false
        ∧ (v : ℚ) * (2 : ℚ) ^ q = value (f.decode old') + ((xs.zip ys).map fun z => value z.1 * value z.2).sum)

/-- R138, R230, R239, R240, R340: an MMA whose check passes replaces each element (r, c) of its tile by the result of
its K-step, a paired one also in the follower's tile with rows 16 to 31, and ORs the flags into every thread of gang 0; no
other byte changes. One whose check fails writes nothing and kills its team. -/
def Says.MatrixCompletion : Prop :=
  ∀ (s : State) (op : Op) (m : MmaReq) (u : Team), s.op? op.uid = some op → op.kind = .mma m →
    firstInArrays op s.ops = true → s.team? op.team = some u → op.live = true → m.before = [] →
    u.acc.wf = true → u.follower.wf = true → (m.accType = 0 ∨ m.accType = 1 ∨ m.accType = 2) → u.kill = none →
    op.gang = 0 → u.gangs ≠ [] →
    let e := if m.accType = 1 then 8 else 4
    let size := 256 * e
    let at' := fun r c => 1024 * m.tile + e * (16 * r + c)
    let cells := (List.range 16).flatMap fun r => (List.range 16).map fun c => (r, c)
    let lead := fun r c => m.element r c (u.acc.readNat (at' r c) e)
    let foll := fun r c => m.element (16 + r) c (u.follower.readNat (at' r c) e)
    let all := cells.map (fun x => lead x.1 x.2) ++ if m.paired then cells.map (fun x => foll x.1 x.2) else []
    let updated := fun (old new : Memory) (v : Nat → Nat → FpResult) =>
      (∀ r < 16, ∀ c < 16, new.readNat (at' r c) e = (v r c).bits % 2 ^ (8 * e))
      ∧ ∀ x, (x < 1024 * m.tile ∨ 1024 * m.tile + size ≤ x) → new.read x = old.read x
    (∀ c : ArrayCheck, c = .passed ∨ c = .repeatedPassed ∨ (m.paired = true ∧ (c = .followerRepeated ∨ c = .bothRepeated)) →
      ∃ t u', exec (.mmaComplete op.uid c) s = .next t ∧ SameMemory s t ∧ t.team? op.team = some u'
        ∧ ((∀ q ∈ s.ops, q.uid ≠ op.uid → q.team = op.team → q.kind.chain? ≠ some m.chain
            ∧ ∀ w, q.kind.usesTiles w (1024 * m.tile) size = false) → Ended s t op)
        ∧ { u'.holdings with acc := u.acc, follower := u.follower } = u.holdings
        ∧ updated u.acc u'.acc lead ∧ (m.paired = true → updated u.follower u'.follower foll)
        ∧ (m.paired = false → u'.follower = u.follower)
        ∧ ∀ g k l, (t.thread? g k l).map Thread.regs = (s.thread? g k l).map fun th =>
            let r := th.regs
            if g = op.team ∧ k = 0 then
              { r with fp := r.fp ||| all.foldl (fun x y => x ||| y.flags) 0#5, satf := r.satf || all.any (·.sat) }
            else r)
    ∧ ∃ t u' x, exec (.mmaComplete op.uid .leaderFailed) s = .next t ∧ SameMemory s t ∧ SameHoldings s t ∧ SameRegs s t
        ∧ t.team? op.team = some u' ∧ u'.kill = some x ∧ x.cause = Cause.matrixcheck ∧ x.info = BitVec.ofNat 64 m.tile

/-- R230, R241, R242: ACCRD issues one operation with each lane's destinations; ACCWR writes a tile from the registers of
gang 0, converted, and ACCZ zeroes tiles, at once; no other byte of the accumulators changes. -/
def Says.AccumulatorWords : Prop :=
  ∀ (s : State) (i : Issue) (f : BitVec 1) (k : BitVec 3) (r tl n : BitVec 7) (y : BitVec 2), s.issue = some i →
    s.calm i.cursor.team → i.replays = false → i.uniform = true → (f = 1#1 → i.launch.paired = true) → i.team.acc.wf = true →
    i.team.follower.wf = true → i.team.acc.era = 0 → i.team.follower.era = 0 → (∀ q ∈ s.ops, q.team ≠ i.cursor.team) →
    let slot := i.launch.slots.getD k.toNat 0#64
    let code := (slot.extractLsb' 0 4).toNat
    let w := slotWidth code
    let run := w / 8
    let e := if y = 1#2 then 8 else 4
    let fits := tl.toNat < i.team.accTiles ∧ (y = 1#2 → tl.toNat % 2 = 0 ∧ tl.toNat + 1 < i.team.accTiles)
    let reg := fun q : Nat => if r = 112#7 then r else r + BitVec.ofNat 7 q
    let other := fun (t : State) (p : Memory → Prop) => SameMemory s t ∧ SameMasks s t ∧ SameAudit s t ∧ SameTraps s t
      ∧ ∃ u, t.team? i.cursor.team = some u
        ∧ (if f = 1#1 then p u.follower ∧ { u.holdings with follower := i.team.follower } = i.team.holdings
          else p u.acc ∧ { u.holdings with acc := i.team.acc } = i.team.holdings)
    let old := if f = 1#1 then i.team.follower else i.team.acc
    (y ≠ 3#2 → fits → (∀ l ∈ i.active, (i.lane l).writable r run) →
      ∃ t op q, exec (.accrd f k r tl y) s = .next t ∧ SameRegs s t ∧ Kept s t ∧ t.ops = s.ops ++ [op] ∧ op.kind = .accrd q
        ∧ op.team = i.cursor.team ∧ op.gang = i.cursor.gang ∧ op.live = true ∧ op.flag = i.path.flag
        ∧ q.tile = tl.toNat ∧ q.accType = y.toNat ∧ q.follower = (f == 1#1) ∧ q.slot = slot ∧ q.before = []
        ∧ q.dests = (List.range 32).map fun l => (l, (List.range run).map fun j => (i.lane l).dest (reg j)))
    ∧ (y ≠ 3#2 → fits → (∀ l ∈ i.active, (i.lane l).writable r run) →
      let given := fun l c : Nat => convertElem code (accFormat y.toNat)
        ((i.val l (reg (c * w / 64))).toNat / 2 ^ (w * (c % (64 / w))) % 2 ^ w) slot
      let all := fun l => (List.range 8).map (given l)
      ∃ t, exec (.accwr f k tl r y) s = .next t
        ∧ (RegsBecome s t i fun l x => { x with
            fp := x.fp ||| (all l).foldl (fun a b => a ||| b.flags) 0#5, satf := x.satf || (all l).any (·.sat) })
        ∧ other t fun new =>
          (∀ row < 16, ∀ c < 16, new.readNat (1024 * tl.toNat + e * (16 * row + c)) e
            = (given (2 * row + c / 8) (c % 8)).bits % 2 ^ (8 * e))
          ∧ ∀ x, (x < 1024 * tl.toNat ∨ 1024 * tl.toNat + 256 * e ≤ x) → new.read x = old.read x)
    ∧ (tl.toNat + n.toNat < i.team.accTiles →
      ∃ t, exec (.accz f tl n) s = .next t ∧ SameRegs s t ∧ other t fun new => ∀ x, new.read x =
        if 1024 * tl.toNat ≤ x ∧ x < 1024 * (tl.toNat + n.toNat + 1) then 0#8 else old.read x)

/-- R241: an ACCRD gives each lane the eight elements of its half row, converted to the slot's format and packed into
its registers, and ORs their flags. -/
def Says.AccumulatorRead : Prop :=
  ∀ (s : State) (op : Op) (q : AccReq) (u : Team) (g : Gang), s.op? op.uid = some op → op.kind = .accrd q →
    s.team? op.team = some u → op.gang = 0 → u.gangs[0]? = some g → q.before = [] → q.given = [] → op.live = true →
    (q.dests.map Prod.fst).Nodup → (∀ x ∈ q.dests, x.2.length = slotWidth (q.slot.extractLsb' 0 4).toNat / 8) →
    let e := if q.accType = 1 then 8 else 4
    let w := slotWidth (q.slot.extractLsb' 0 4).toNat
    let tile := if q.follower then u.follower else u.acc
    let element := fun l c : Nat => convertElem (accFormat q.accType) (q.slot.extractLsb' 0 4).toNat
      (tile.readNat (1024 * q.tile + e * (16 * (l / 2) + 8 * (l % 2) + c)) e) q.slot
    let all := fun l => (List.range 8).map (element l)
    ∃ t, exec (.accrdComplete op.uid) s = .next t ∧ Kept s t ∧ Ended s t op
      ∧ ∀ x k l, (t.thread? x k l).map Thread.regs = (s.thread? x k l).map fun th =>
          if x = op.team ∧ k = 0 then
            match q.dests.find? fun d => d.1 == l with
            | some d =>
              let r := (d.2.zipIdx).foldl (fun r y => r.put y.1 (pack w
                ((List.range (64 / w)).map fun b => (element l (64 / w * y.2 + b)).bits))) th.regs
              { r with fp := r.fp ||| (all l).foldl (fun a b => a ||| b.flags) 0#5, satf := r.satf || (all l).any (·.sat) }
            | none => th.regs
          else th.regs

/-- R76 and R241: the conversions of ACCRD and ACCWR between a tile's type and a slot's format, under the slot's rounding
and saturation: floating-point formats round the source's value once; an integer from an integer clamps, setting SATF, or
keeps its low bits; an integer from an integral floating-point value is that value where it is one of the target's, and
clamps with nv otherwise, a NaN giving 0; and M8 takes the nearest of its values. -/
def Says.TileConversion : Prop :=
  ∀ (src dst bits : Nat) (slot : W64),
    let r := rndOf (slot.extractLsb' 6 2)
    let sat := slot.getLsbD 8
    let floats := [(0, f64), (1, f32), (2, f16), (3, bf16), (9, e4m3), (10, e5m2)]
    let ints : List (Nat × BitVec 1 × Nat) := [(5, 0#1, 8), (6, 1#1, 8), (7, 0#1, 16), (8, 0#1, 32)]
    let c := convertElem src dst bits slot
    let int := fun (n : Nat) (v : Int) => (BitVec.ofInt n v).toNat
    (∀ G F, (src, G) ∈ floats → (dst, F) ∈ floats → c = F.ofFp (G.decode bits) r sat)
    ∧ (∀ u n F, (src, u, n) ∈ ints → (dst, F) ∈ floats → c = F.ofFp (Fp.ofInt (number u (BitVec.ofNat n bits)) 0) r sat)
    ∧ (∀ u n u' n', (src, u, n) ∈ ints → (dst, u', n') ∈ ints →
      let v := number u (BitVec.ofNat n bits)
      let w := clampTo u' n' v
      c = if sat then { bits := int n' w, flags := 0#5, sat := decide (w ≠ v) } else { bits := int n' v, flags := 0#5, sat := false })
    ∧ (∀ G u n, (src, G) ∈ floats → (dst, u, n) ∈ ints →
      ((G.decode bits).isNan = true → c = { bits := 0, flags := flagNv, sat := false })
      ∧ (∀ neg, G.decode bits = .inf neg →
        c = { bits := int n (clampTo u n (if neg then -2 ^ 32 else 2 ^ 32)), flags := flagNv, sat := false })
      ∧ ∀ neg m e (v : Int), G.decode bits = .fin neg m e → (G.decode bits).real = v →
        let w := clampTo u n v
        c = { bits := int n w, flags := flagIf (decide (w ≠ v)) flagNv, sat := false })
    ∧ ∀ G, (src, G) ∈ floats → dst = 4 →
      ((G.decode bits).isNan = true → c.bits = 128)
      ∧ ∀ neg m e, G.decode bits = .fin neg m e →
        (|(G.decode bits).real| ≤ 4096 → ∀ b < 256, b ≠ 128 →
          |(G.decode bits).real - (m8Decode c.bits).real| ≤ |(G.decode bits).real - (m8Decode b).real|)
        ∧ (4096 < |(G.decode bits).real| → c = { bits := if neg then 255 else 127, flags := flagOf ||| flagNx, sat := true })

/-! ## Votes and clauses -/

/-- The majors of REP and GRD. -/
def Clause.isRep (w : W32) : Prop := w.extractLsb' 25 7 = 0x0A#7
def Clause.isGrd (w : W32) : Prop := w.extractLsb' 25 7 = 0x0B#7

/-- Item 1 of R135. -/
def Clause.header (h : W32) : Prop :=
  h.extractLsb' 28 4 = 15#4 ∧ h.extractLsb' 4 4 ≠ 0#4 ∧ h.extractLsb' 0 3 = 0#3
  ∧ ∀ f ∈ [h.extractLsb' 12 4, h.extractLsb' 8 4], f.toNat < 12 ∨ f.toNat = 15

/-- Item 3 of R135. -/
def Clause.flags (h : W32) (body : List W32) : Prop :=
  let a := h.extractLsb' 12 4
  let b := h.extractLsb' 8 4
  match (body.filter flaggedWord).length with
  | 0 => a = 15#4 ∧ b = 15#4
  | 1 => a ≠ 15#4 ∧ b = 15#4
  | 2 => a ≠ 15#4 ∧ b ≠ 15#4 ∧ a ≠ b
  | _ => False

/-- Word k of a clause breaks item 2, 4 or 5 of R135. -/
def Clause.offends (ws : List W32) (k : Nat) : Prop :=
  let w := fun n : Nat => ws.getD n 0#32
  let last := k + 1 = ws.length
  (w k).extractLsb' 28 4 = 15#4
  ∨ ((Clause.isRep (w k) ∨ Clause.isGrd (w k)) ∧ (last ∨ (1 < k ∧ (Clause.isRep (w (k - 1)) ∨ Clause.isGrd (w (k - 1)))
      ∧ ¬(Clause.isRep (w (k - 1)) ∧ Clause.isGrd (w k)))))
  ∨ (endsClause (w k) = true ∧ ¬last)
  ∨ (refusesRep (w k) = true ∧ 1 < k ∧ (Clause.isRep (w (k - 1))
      ∨ (2 < k ∧ Clause.isGrd (w (k - 1)) ∧ Clause.isRep (w (k - 2)))))

/-- R25, R26, R135, R136, R143 and R301: where the runnable threads of an active gang stand at one PC, no path is in
flight and no flag is set, a vote starts the clause there for all of them, at its header; a clause that is not well formed
makes them raise CLAUSE at its first offending word, 0 for the header, with the header in TRAPINFO. That a breach of item
3 of R135 is reported at word 0, before items 2, 4 and 5 are looked at, is the model's reading (DEDUCED, log 29). -/
def Obligations.GangVotes : Prop :=
  ∀ (s : State) (u k : Nat) (t : Team) (g : Gang) (ls : W32) (pc : W64) (pa : Nat → Nat), s.team? u = some t →
    t.state = .running → s.gang? u k = some g → g.residency = .active → g.paths = [] → g.serial = false → g.flags = 0#12 →
    g.threads.length = 32 → ls ≠ 0#32 → pc.toNat % 4 = 0 → (s.core t.core).icache = [] →
    (∀ l th, g.threads[l]? = some th → if ls.getLsbD l = true
      then th.exited = false ∧ th.blocked = .none ∧ th.pc = pc ∧ th.resume = none ∧ th.trapDepth = false
      else th.exited = true ∨ th.blocked ≠ .none) →
    (∀ j < 16, isRemote (pa j) = false ∧ s.poisonedAt (pa j) 4 = false
      ∧ ∃ leaf, s.translate t.core t.ctx (pc + BitVec.ofNat 64 (4 * j)) .fetch = .ok (pa j) leaf) →
    let word := fun j : Nat => (BitVec.ofNat 32 (s.mem.readNat (pa j) 4) : W32)
    let body := (List.range ((word 0).extractLsb' 4 4).toNat).map fun j => word (j + 1)
    let whole := word 0 :: body
    let good := Clause.header (word 0) ∧ Clause.flags (word 0) body ∧ ∀ j < whole.length, 0 < j → ¬Clause.offends whole j
    (good → ∃ s' p, exec (.gangVote u k) s = .next s' ∧ SameRegs s s' ∧ Kept s s'
      ∧ (s'.gang? u k).map Gang.paths = some [p] ∧ p.lanes = ls ∧ p.header = pc ∧ p.words = whole ∧ p.pos = 0
      ∧ p.guard = none ∧ p.rep = none)
    ∧ ((∀ l, ls.getLsbD l = true → (g.threads.getD l Thread.blank).trapVec ≠ 0#64) → ∀ first,
      ((¬Clause.header (word 0) ∨ ¬Clause.flags (word 0) body) ∧ first = 0
        ∨ Clause.header (word 0) ∧ Clause.flags (word 0) body ∧ 0 < first ∧ first < whole.length
          ∧ Clause.offends whole first ∧ ∀ j, 0 < j → j < first → ¬Clause.offends whole j) →
      ∃ s', exec (.gangVote u k) s = .next s' ∧ SameRegs s s' ∧ SameMemory s s'
        ∧ ∀ l th, ls.getLsbD l = true → s'.thread? u k l = some th →
            th.trapDepth = true ∧ th.trapCause = BitVec.ofNat 64 (first * 256 + 0x03)
            ∧ th.trapInfo = (word 0).setWidth 64 ∧ th.resumeHeader = pc ∧ (first = 0 → th.trapPc = pc)
            ∧ th.pc = (g.threads.getD l Thread.blank).trapVec + 192#64)

/-- R32: once every live thread of a team waits at a REWARP and its flagged operations have drained, the regroup unit
places the threads densely by key, ties by old gang and old lane. A thread carries its window of n registers and all else
that it holds; its registers from xn upward read as zero. Places beyond the last hold exited threads; every mask is zero.
What a register below WINBASE holds is not said. -/
def Obligations.Regroups : Prop :=
  ∀ (s : State) (u : Nat) (t : Team), s.team? u = some t → s.regroupDue t = true → (∀ g ∈ t.gangs, g.threads.length ≤ 32) →
    ∃ (s' : State) (order : List (Nat × Nat × Thread)), exec (.regroup u) s = .next s' ∧ SameMemory s s'
      ∧ order.Perm t.liveThreads
      ∧ (order.Pairwise fun a b => a.2.2.rewarpAsk.1 < b.2.2.rewarpAsk.1
          ∨ (a.2.2.rewarpAsk.1 = b.2.2.rewarpAsk.1 ∧ (a.1 < b.1 ∨ (a.1 = b.1 ∧ a.2.1 < b.2.1))))
      ∧ ∀ k < t.gangs.length, (∀ g, s'.gang? u k = some g → g.masks = List.replicate 12 0#32)
        ∧ ∀ l < 32, ∃ th, s'.thread? u k l = some th ∧ match order[32 * k + l]? with
          | none => th.exited = true
          | some (_, _, old) => ∃ x, th = { old with x, blocked := .none, resume := none } ∧ x.length = old.x.length
              ∧ ∀ r < old.x.length, old.winBase ≤ r →
                  x[r]? = if r < old.winBase + old.rewarpAsk.2 then old.x[r]? else some 0#64

/-! ## Launches and tasks -/

/-- R38, R39, R49, R57 and Table 2.1: a dispatch of the record at the head of the chosen queue, when no check of Table
2.11 fails, makes it a running launch with root_teams root tasks, each at its own place, whose weights are 2^63 and what
the launch owes; a record that fails a check leaves the queue, and no launch or task comes of it. -/
def Says.Dispatches : Prop :=
  ∀ (s : State) (q : Queue) (a : W64) (bs : List Byte), s.nextQueue = some q → q.items.head? = some (.record a) →
    s.unitRead q.ctx a 256 = (s, .bytes bs) →
    let l := launchOfRecord s.nextUid a q.ctx q.id (natOfBytes bs) none 0
    (s.dispatchFault l (natOfBytes bs) = none → l.traced = false →
      (∀ x ∈ s.launches, x.state = .queued ∨ x.state = .running) →
      ∃ (s' : State) (ks : List Task), exec (.launchDispatch q.id) s = .next s' ∧ s'.tasks = s.tasks ++ ks
        ∧ ks.length = l.rootTeams
        ∧ (∀ i k, ks[i]? = some k → k.launch = l.uid ∧ k.parent = none ∧ k.rootIndex = i ∧ k.position = [[i, 0]]
            ∧ k.key = BitVec.ofNat 128 i ∧ k.desc = BitVec.ofNat 512 (natOfBytes bs) ∧ k.state = .waiting)
        ∧ ∃ l' ∈ s'.launches, l' = { l with debt := l'.debt } ∧ (ks.map Task.weight).sum = 2 ^ 63 + l'.debt * 2 ^ 40)
    ∧ ∀ cause info, s.dispatchFault l (natOfBytes bs) = some (cause, info) →
        (∀ x ∈ s.launches, x.state = .queued ∨ x.state = .running) →
        ∃ s', exec (.launchDispatch q.id) s = .next s' ∧ s'.tasks = s.tasks ∧ s'.launches = s.launches
          ∧ (s.mc.hasRoom = true → s'.mc.seq = s.mc.seq + 1)
          ∧ ∀ x, s.queue? q.id = some x → s'.queue? q.id = some { x with items := x.items.drop 1 }

/-- R37, R41, R43 and Tables 3.2 and 3.3: a task that its place in the order and the core's resources admit becomes a team
in state ZEROING, whose threads hold the values of admission: PC the entry, y0 to y3 the arguments, y15 the end of the
private memory, every other register zero. Zeroing done, it runs, and its core's L1 is invalidated. -/
def Says.Admissions : Prop :=
  (∀ (s : State) (k : Task) (l : Launch) (core block : Nat), s.task? k.uid = some k → s.launch? k.launch = some l →
    k.state = .waiting → l.state = .running → l.coop = false → s.restoreFirst l.ctx = false →
    s.admittedBefore l k = false → s.placeTask k = some (l, core, block) →
    let d : Desc := k.desc
    ∃ s' t, exec (.teamAdmission k.uid) s = .next s' ∧ SameMemory s s' ∧ t ∈ s'.teams ∧ t.uid = s.nextUid
      ∧ t.task = k.uid ∧ t.core = core ∧ t.state = .zeroing ∧ t.gangs.length = d.gangs ∧ t.scratch = Memory.empty
      ∧ t.acc = Memory.empty ∧ t.queueRegs = List.replicate 4 0#64 ∧ t.timelines.length = d.engCtx
      ∧ t.barriers = List.replicate d.barriers { expected := 0, arrivals := 0, episode := 0, mark := 0 }
      ∧ ∀ g, (hg : g < t.gangs.length) → t.gangs[g].masks = List.replicate 12 0#32 ∧ t.gangs[g].flags = 0#12
        ∧ t.gangs[g].threads.length = 32 ∧ ∀ n, (hn : n < t.gangs[g].threads.length) →
          let th := t.gangs[g].threads[n]
          let base : W64 := BitVec.ofNat 64 (block + 256 * d.privUnits * (32 * g + n))
          th.pc = d.entry ∧ th.x = List.replicate (8 * d.regs8) 0#64 ∧ th.p = 0#8 ∧ th.winBase = 0 ∧ th.retDepth = 0
          ∧ th.satf = false ∧ th.fp = 0#5 ∧ th.privBase = base ∧ th.recording = l.traced
          ∧ th.trapRegs = { pc := 0#64, cause := 0#64, info := 0#64, depth := false } ∧ th.trapVec = 0#64
          ∧ th.exited = false ∧ th.blocked = .none ∧ th.y.length = 16
          ∧ (∀ r < 4, th.y[r]? = some (if d.argPtr = true ∧ r ≠ 0 then 0#64 else d.arg r))
          ∧ (∀ r < 15, 4 ≤ r → th.y[r]? = some 0#64) ∧ th.y[15]? = some (base + BitVec.ofNat 64 (256 * d.privUnits)))
  ∧ ∀ (s : State) (u : Nat) (t : Team), s.team? u = some t → t.state = .zeroing →
      ∃ s', exec (.zeroingComplete u) s = .next s' ∧ SameRegs s s' ∧ Kept s s' ∧ (s'.core t.core).l1 = []
        ∧ (s'.team? u).map Team.state = some (if t.drainWanted = true then .draining else .running)

/-- R39 and R49: a team all of whose threads have exited and for which nothing is under way ends: it leaves its core, its
task counts once as completed, its digest is added to the launch's, and its weight goes back. Outside traces and audits. -/
def Says.TaskEnds : Prop :=
  ∀ (s : State) (t : Team) (k : Task) (l : Launch), s.team? t.uid = some t → s.task? t.task = some k →
    s.launch? k.launch = some l → t.state = .exiting → s.teamIdle t = true → t.audit = none → k.audit = none →
    k.counted = false → k.pooled = false → s.traces = [] →
    ∃ s', exec (.taskEnd t.uid) s = .next s' ∧ SameMemory s s' ∧ s'.team? t.uid = none
      ∧ s'.task? k.uid = some { k with counted := true, state := .ended, weight := 0 }
      ∧ s'.launch? l.uid = some { l with
          completed := l.completed + 1, digestSum := l.digestSum + k.digest, returned := l.returned + k.weight }

/-- R54 and R119: the node that the reckoner takes is startable, and no startable node comes before it in the order of the
spawn tree; the operation that a DET grant performs is a contender's than which no other has a lesser clock, or at the
same clock a lower place in that order, or a lower gang of the same task. -/
def Says.LeastChosen : Prop :=
  (∀ (t : Trace) (n : Node),
    let startable := fun m : Node => m.state = .stale ∧ m.remote = none ∧ m.task ∉ t.stopping
      ∧ ∀ a ∈ t.nodes, a.busy = true → t.descends m.task a.task = false
    t.nextStale = some n → n ∈ t.nodes ∧ startable n ∧ ∀ m ∈ t.nodes, startable m → posLt m.position n.position = false)
  ∧ ∀ (s : State) (launch u g : Nat) (p : Pending), s.nextGrant launch = some (u, g, p) →
      ∃ c ∈ s.unparked launch ++ s.unadmitted launch, c.team = some u ∧ c.gang = g ∧ c.pending = some p
        ∧ ∀ d ∈ s.unparked launch ++ s.unadmitted launch, ¬(d.clock < c.clock ∨ (d.clock = c.clock
          ∧ (posLt d.position c.position = true ∨ (d.position = c.position ∧ d.gang < c.gang))))

/-- R105, R119 and R120: where a propagation's window has room, the reckoner takes the least startable STALE task and reads
its descriptor anew: one whose digest is unchanged starts again with weight of the reckoner's pool, and its node is
REEXEC; where the digest has changed its parent is marked. -/
def Says.Reckons : Prop :=
  ∀ (s : State) (t : Trace) (n : Node) (k : Task) (p : Nat) (bs : List Byte), s.traces = [t] → t.acts = true →
    t.nextStale = some n → t.state ≠ .ready → s.reckonerLoad t < t.window → s.storePoisoned t n = false →
    s.unitRead t.ctx n.descAddr 64 = (s, .bytes bs) → s.task? n.task = some k → n.parent = some p →
    (digestDesc (descOf bs) = n.descDigest →
      ∃ s' t', exec (.reckonerStartTask t.ctx) s = .next s' ∧ SameMemory s s' ∧ SameRegs s s' ∧ s'.traces = [t']
        ∧ t'.started = t.started ++ [n.task] ∧ t'.propReexec = t.propReexec + 1
        ∧ (∀ x ∈ t'.nodes, x.task = n.task → x.state = .reexec)
        ∧ ∃ k', s'.task? n.task = some k' ∧ k'.state = .waiting ∧ k'.reexec = true ∧ k'.spawnIndex = 0
            ∧ k'.desc = descOf bs ∧ k'.position = k.position ∧ k'.pooled = true
            ∧ k'.weight = if 2 ≤ t.poolHeld then t.poolHeld / 2 else 2 ^ 40)
    ∧ (digestDesc (descOf bs) ≠ n.descDigest →
      ∃ s' t', exec (.reckonerStartTask t.ctx) s = .next s' ∧ SameMemory s s' ∧ SameRegs s s' ∧ s'.tasks = s.tasks
        ∧ s'.traces = [t'] ∧ t'.started = t.started
        ∧ ∀ x ∈ t.nodes, x.task = p → x.state = .live → ∃ y ∈ t'.nodes, y.task = p ∧ y.state = .stale)

/-- R54, R295 and Table 9.3, for a grant of an atomic: the gang with the least key performs it; its bytes change
and no other, the old value goes to its register later, and every other parked gang's clock advances by 1,024. -/
def Says.Grants : Prop :=
  ∀ (s : State) (launch u g p l op n pa : Nat) (va v : W64) (d : Dest) (i : Issue), s.detLaunch launch = true →
    s.nextGrant launch = some (u, g, .word p) → s.issueAt { team := u, gang := g, path := p } = some i →
    i.path.grants = [(l, .atomic op n va pa v d)] → isRemote pa = false → s.poisonedAt pa n = false → s.Canonical →
    (n = 4 ∨ n = 8) → s.calm u → (s.parkedGangs launch).Nodup →
    let old := s.mem.readNat pa n
    let new := atomicNew op n old (v.toNat % 2 ^ (8 * n))
    ∃ s', exec (.detGrant launch) s = .next s' ∧ SameRegs s s' ∧ Quiet s s' ∧ Stored s s' pa (bytesOfNat n new.value)
      ∧ (∃ o ∈ s'.ops, o.kind = .returned d old new.sat new.fp ∧ o.team = u ∧ o.gang = g ∧ o.lane = l)
      ∧ ∀ x ∈ s.parkedGangs launch, x ≠ (u, g) → ∀ a b, s.gang? x.1 x.2 = some a → s'.gang? x.1 x.2 = some b →
          b.clock = a.clock + 1024

/-- R303, R305, R306 and Table 18.4: when nothing of a killed team is under way any more its record stands in the
machine-check ring, the team is gone, its weight goes back, and its launch has failed or is to be replayed. Outside
traces, audits and claims. -/
def Says.Kills : Prop :=
  ∀ (s : State) (t : Team) (k : Task) (l : Launch) (x : Kill), s.team? t.uid = some t → s.task? t.task = some k →
    s.launch? k.launch = some l → t.launch = k.launch → t.kill = some x → t.state = .killed → s.teamIdle t = true →
    x.silent = false → l.state = .running → k.pooled = false → s.traces = [] → s.audits = [] →
    (∀ e ∈ s.claims, e.maker ≠ some k.uid) → s.mc.hasRoom = true → s.Canonical →
    let again := l.idempotent = true ∧ l.replays < 2
    let ring := s.mc.base + 64 * s.mc.tail
    ∃ s', exec (.killDrainComplete t.uid) s = .next s' ∧ s'.team? t.uid = none
      ∧ s'.task? k.uid = some { k with state := .ended, weight := 0 }
      ∧ (∃ l', s'.launch? l.uid = some l' ∧ l'.returned = l.returned + k.weight
        ∧ l'.failCause = some (l.failCause.getD x.cause) ∧ (l'.replayWanted = true ↔ l.replayWanted = true ∨ again))
      ∧ s'.mc.seq = s.mc.seq + 1 ∧ s'.msix = s.msix ++ [s.mc.vector]
      ∧ s'.mem.readNat ring 8 = t.ctx % 32 * 2 ^ 44 + x.slot % 64 * 2 ^ 49 + t.core % 512 * 2 ^ 55
      ∧ (s'.mem.readNat (ring + 8) 8 / 2 ^ 8) = x.kind % 256 + x.cause % 256 * 2 ^ 8 + x.firstCause % 256 * 2 ^ 16
          + x.lanes.toNat * 2 ^ 24
      ∧ (l.recordWritten = false →
          open Classical in s'.mem.readNat (ring + 8) 8 % 2 ^ 8 / 2 ^ 4 = if again then 2 else 3)
      ∧ s'.mem.readNat (ring + 16) 8 = (s.mc.seq + 1) % 2 ^ 64 ∧ s'.mem.readNat (ring + 24) 8 = x.addr.toNat
      ∧ s'.mem.readNat (ring + 40) 8 = l.record.toNat ∧ s'.mem.readNat (ring + 48) 8 = x.pc.toNat
      ∧ s'.mem.readNat (ring + 56) 8 = x.info.toNat
      ∧ ∀ b, (b < ring ∨ ring + 64 ≤ b) → s'.mem.read b = s.mem.read b

/-- R44, R50 to R52: a draining team that has drained, its save area written, is SAVED: no path, no active slot, every
register kept; one whose threads have all exited is exiting. A SAVED team that a core takes runs there again with all
that it held, and its core's L1 is invalidated. -/
def Says.Preemptions : Prop :=
  (∀ (s : State) (u : Nat) (t : Team), s.team? u = some t → t.state = .draining → s.drainedTeam t = true →
    ((∃ g ∈ t.gangs, g.allExited = false) → s.areaZeroing t = false → (s.writeArea t.ctx t.saveArea ((t.saveBytes + 63) / 64)).2 = none →
      ∃ s' t', exec (.preemptDrainComplete u) s = .next s' ∧ SameRegs s s' ∧ Quiet s s' ∧ s'.team? u = some t'
        ∧ t'.state = .saved ∧ ∀ g ∈ t'.gangs, g.paths = [] ∧ g.activeSlot = none)
    ∧ ((∀ g ∈ t.gangs, g.allExited = true) →
      ∃ s', exec (.preemptDrainComplete u) s = .next s' ∧ SameRegs s s' ∧ Kept s s'
        ∧ (s'.team? u).map Team.state = some .exiting))
  ∧ ∀ (s : State) (t : Team) (core : Nat), s.team? t.uid = some t → s.placeSaved t = some core → s.restorable t = true →
      s.restoredBefore t = false → s.areaPoison t = none →
      ∃ s', exec (.teamRestore t.uid) s = .next s' ∧ SameRegs s s' ∧ Kept s s' ∧ (s'.core core).l1 = []
        ∧ (s'.team? t.uid).map (fun x => (x.core, x.state)) = some (core, .running)

/-- R337 to R339: an audit's replay takes a place on another core of the same die, with the log of the first run. When it
has exited with nothing under way, a digest that matches the first run's ends the audit, and the weight that the audit
held goes back; if not, or if the replay has diverged, a record is written and the task runs a third time on neither core.
Stated of tasks outside traces. -/
def Says.Audits : Prop :=
  (∀ (s : State) (a : Audit) (l : Launch) (core block : Nat), s.audits.find? (fun x => x.uid == a.uid) = some a →
    a.replay = none → s.placeReplay a = some (l, core, block) → s.task? a.task ≠ none →
    ∃ s', exec (.auditReplay a.uid) s = .next s' ∧ SameMemory s s' ∧ core ≠ a.core ∧ core / 72 = a.core / 72
      ∧ (∃ t ∈ s'.teams, t.uid = s.nextUid ∧ t.state = .replay ∧ t.core = core)
      ∧ ∃ x ∈ s'.audits, x.uid = a.uid ∧ x.replay = some (s.nextUid, core) ∧ x.left = a.log)
  ∧ ∀ (s : State) (a : Audit) (l : Launch) (k : Task) (t : Team) (core : Nat),
      s.audits.find? (fun x => x.uid == a.uid) = some a → a.replay = some (t.uid, core) → a.replayDigest = none →
      s.team? t.uid = some t → a.lost = false → (a.mismatch = true ∨ (t.gangs.all Gang.allExited = true ∧ s.teamIdle t = true)) →
      s.launch? a.launch = some l → s.task? a.task = some k → k.launch = a.launch → s.traces = [] → a.pooled = false →
      (a.mismatch = false → a.ran.digest = a.digest →
        ∃ s', exec (.auditReplayEnd a.uid) s = .next s' ∧ SameMemory s s' ∧ (∀ x ∈ s'.audits, x.uid ≠ a.uid)
          ∧ s'.team? t.uid = none ∧ s'.launch? a.launch = some { l with returned := l.returned + a.weight })
      ∧ (a.mismatch = true ∨ a.ran.digest ≠ a.digest → s.mc.hasRoom = true →
        ∃ s' k', exec (.auditReplayEnd a.uid) s = .next s' ∧ s'.mc.seq = s.mc.seq + 1 ∧ s'.task? a.task = some k'
          ∧ k'.state = .waiting ∧ k'.avoid = [a.core, core] ∧ k'.audit = some a.uid ∧ s'.team? t.uid = none
          ∧ ∃ x ∈ s'.audits, x.uid = a.uid ∧ x.third = true)

/-- R338, for one thread: a replay's LDD takes the value that the first run's log holds next for its thread, in program
order, and reads no memory; at another address than the logged one the replay has diverged. Its STD goes into the digest
of what the task stores, unless it lies in the task's private memory, and is not performed. -/
def Says.ReplayedAccesses : Prop :=
  ∀ (s : State) (i : Issue) (x : Audit) (d a : BitVec 7) (m : BitVec 11), s.issue = some i → s.calm i.cursor.team →
    i.replays = true → s.auditBy i.cursor.team = some x → (s.audits.map Audit.uid).Nodup → i.path.lanes = 1#32 → i.active = [0] →
    a ≠ 115#7 → d ≠ 115#7 → i.reads [a] →
    let va := i.val 0 a + m.signExtend 64
    let mine := fun (n : Nat) (at' v : W64) => AuditEntry.load i.cursor.gang 0 n at' v
    (i.writes d → decode i.word = .ok (.ldd d a m) → ∀ n at' v, mine n at' v ∈ x.left →
      (∀ n' at'' v', mine n' at'' v' ∈ x.left → n < n' ∨ (n' = n ∧ at'' = at' ∧ v' = v)) →
      (at' = va → ∃ t, exec (.ldd d a m) s = .next t ∧ (RegsBecome s t i fun _ r => r.set d v) ∧ SameMemory s t ∧ t.ops = s.ops
        ∧ ∃ y ∈ t.audits, y.uid = x.uid ∧ y.left = x.left.erase (mine n at' v) ∧ y.mismatch = x.mismatch)
      ∧ (at' ≠ va → ∃ t, exec (.ldd d a m) s = .next t ∧ SameMemory s t ∧ ∃ y ∈ t.audits, y.uid = x.uid ∧ y.mismatch = true))
    ∧ (i.reads [d] → decode i.word = .ok (.std d a m) →
      ∃ t, exec (.std d a m) s = .next t ∧ SameRegs s t ∧ SameMemory s t ∧ (t.core i.team.core).stores = (s.core i.team.core).stores
        ∧ ∃ y ∈ t.audits, y.uid = x.uid ∧ y.ran = if inTeamPrivate { i.team with privBlock := x.block } va then x.ran
            else x.ran.wrote va (bytesOfNat 8 (i.val 0 d).toNat))

/-! ## Translation and the host -/

/-- R261, R263, R264 and Table 12.3: a walk that ends at a leaf puts it into its core's TLB; of a page that needs zeroing
every byte reads as zero first, and the entry says that the page is owned; of a page that another walk zeroes it waits. A
die's walker has the first 64 of its walks in hand, and completes no other. A walk that ends at an invalid or bad entry
parks its lanes, or holds its engine command, on a fault, whose record, if there is room, is written; that of a prefetch or
discard makes no fault. -/
def Says.Walks : Prop :=
  ∀ (s : State) (w : Walk), s.walks.find? (fun x => x.uid == w.uid) = some w → s.Canonical →
    let ahead := (s.walks.takeWhile fun x => x.uid != w.uid).filter fun x => x.core / 72 == w.core / 72 && !x.parked
    (w.parked = false → 64 ≤ ahead.length → ∀ t, exec (.tableWalkComplete w.uid) s ≠ .next t)
    ∧ ((w.parked = true ∨ ahead.length < 64) →
    let ends := fun (t : State) => exec (.tableWalkComplete w.uid) s = .next t ∧ SameRegs s t
    let installs := fun (t : State) (e : W64) => t.walks = s.walks.filter (fun x => x.uid != w.uid)
      ∧ (t.core w.core).tlb.head? = some { ctx := w.ctx, base := w.va.toNat / leafBytes (pteSize e) * leafBytes (pteSize e)
                                           size := leafBytes (pteSize e), leaf := e }
    (∀ a level e, s.walkTables w.ctx w.va = .leaf a level e →
      ((pteZoa e = false ∨ pteOwn e = 2) → ∃ t, ends t ∧ Kept s t ∧ installs t e)
      ∧ (pteZoa e = true → pteOwn e = 1 → w.parked = false →
        ∃ t, ends t ∧ Kept s t ∧ t.walks = s.walks.map fun x => if x.uid = w.uid then { x with parked := true } else x)
      ∧ (pteZoa e = true → pteOwn e = 0 → pteAddr e < deviceBytes →
        (a + 8 ≤ pteAddr e ∨ pteAddr e + leafBytes (pteSize e) ≤ a) →
        let owned : W64 := BitVec.ofNat 64 (setField e.toNat 11 2 2)
        ∃ t, ends t ∧ Quiet s t ∧ installs t owned ∧ t.mem.readNat a 8 = owned.toNat
          ∧ (∀ b, pteAddr e ≤ b → b < pteAddr e + leafBytes (pteSize e) → t.mem.read b = 0#8)
          ∧ ∀ b, (b < pteAddr e ∨ pteAddr e + leafBytes (pteSize e) ≤ b) → (b < a ∨ a + 8 ≤ b) → t.mem.read b = s.mem.read b))
    ∧ (∀ level reason, s.walkTables w.ctx w.va = .fault level reason → w.quiet = true →
        ∃ t, ends t ∧ Kept s t ∧ t.faults = s.faults ∧ t.walks = s.walks.filter (fun x => x.uid != w.uid)
          ∧ ∀ n p, w.path = some n → t.path? { team := w.team, gang := w.gang, path := n } = some p →
              w.va.toNat / 2 ^ 16 ∈ p.unmapped)
    ∧ (∀ level reason c r, s.walkTables w.ctx w.va = .fault level reason → w.quiet = false → w.command = some c →
        s.command? c = some r → s.faultRoom r.team.core = true →
        ∃ t f, ends t ∧ Quiet s t ∧ f ∈ t.faults ∧ f.id = s.fq.nextId ∧ f.level = level ∧ f.reason = reason ∧ f.va = w.va
          ∧ f.access = w.access ∧ f.command = some c)
    ∧ ∀ level reason g, s.walkTables w.ctx w.va = .fault level reason → w.quiet = false → w.command = none →
        s.gang? w.team w.gang = some g → s.faultRoom w.core = true → (w.lanes.filter fun l => g.stillWaits w l.1) ≠ [] →
        ∃ t f, ends t ∧ Quiet s t ∧ f ∈ t.faults ∧ f.id = s.fq.nextId ∧ f.level = level ∧ f.reason = reason ∧ f.va = w.va
          ∧ f.access = w.access ∧ f.lanes = w.lanes.filter (fun l => g.stillWaits w l.1)
          ∧ (∀ l ∈ f.lanes, ∀ th, t.thread? w.team w.gang l.1 = some th → th.blocked = .fault f.id)
          ∧ (s.faultSpace = true → s.unposted = none →
            let ring := s.fq.base + 32 * (s.fq.written % s.fq.entries)
            t.msix = s.msix ++ [s.fq.vector] ∧ t.mem.readNat (ring + 24) 8 = w.va.toNat
            ∧ t.mem.readNat (ring + 20) 4 = (maskOf (f.lanes.map Prod.fst)).toNat
            ∧ t.mem.readNat (ring + 16) 4 = f.id % 2 ^ 32
            ∧ t.mem.readNat ring 8 = reason % 2 ^ 8 + level % 4 * 2 ^ 8 + w.access % 16 * 2 ^ 16 + w.ctx % 32 * 2 ^ 20
                + g.slot % 64 * 2 ^ 25 + w.core % 512 * 2 ^ 31
            ∧ ∀ b, (b < ring ∨ ring + 32 ≤ b) → t.mem.read b = s.mem.read b))

/-- R262 and R310: the record of a fault that waits is written once the queue has room; an INVAL completes when no walk
that it concerns is under way, and no TLB then holds a translation that it drops, and holds every other. -/
def Says.FaultsAndInvals : Prop :=
  (∀ (s : State) (f : PageFault), s.unposted = some f → s.faultSpace = true → s.Canonical →
    let ring := s.fq.base + 32 * (s.fq.written % s.fq.entries)
    ∃ t, exec .faultRecordPost s = .next t ∧ SameRegs s t ∧ Quiet s t ∧ t.fq.written = s.fq.written + 1
      ∧ t.msix = s.msix ++ [s.fq.vector] ∧ Stored s t ring f.bytes
      ∧ ∀ x ∈ t.faults, x.id = f.id → x.posted = true)
  ∧ ∀ (s : State) (v : Inval), s.invals.find? (fun x => x.uid == v.uid) = some v → s.walks.any v.concerns = false →
      let drops := fun e : TlbEntry => e.ctx = v.ctx
        ∧ (v.pages = 0 ∨ (e.base < v.base + v.pages * 2 ^ 16 ∧ v.base < e.base + e.size))
      ∃ t, exec (.invalComplete v.uid) s = .next t ∧ SameRegs s t ∧ Kept s t
        ∧ (∀ c e, e ∈ (t.core c).tlb ↔ e ∈ (s.core c).tlb ∧ ¬drops e) ∧ (∀ x ∈ t.invals, x.uid ≠ v.uid)
        ∧ ∀ c, s.hostCommands = [c] → c.uid = v.command → c.waits = [] →
            t.cmdDone = s.cmdDone + 1 ∧ t.cmdStat = 0 ∧ t.hostCommands = []

/-- A command has been counted with a status where no earlier one waits, and not where one does (R266). -/
def Says.Counted (s t : State) (status : Nat) : Prop :=
  (s.hostCommands = [] → t.hostCommands = [] ∧ t.cmdDone = s.cmdDone + 1 ∧ t.cmdStat = status)
  ∧ ∀ c cs, s.hostCommands = c :: cs → c.status = none → t.cmdDone = s.cmdDone ∧ t.cmdStat = s.cmdStat

/-- R262, R266 and Table 12.4: CTXSET, QCFG, QDESTROY and INVAL: a bad operand gives status 1 and a state that refuses
them status 2, with no effect; otherwise they set what the table says, and no other context or queue. -/
def Says.ContextCommands : Prop :=
  ∀ s : State, s.island.computeUp = true →
    let runs := fun (w : Instr) (status : Nat) (p : State → Prop) =>
      ∃ t, exec w s = .next t ∧ SameRegs s t ∧ Kept s t ∧ Says.Counted s t status ∧ p t
    let same := fun t : State => t.contexts = s.contexts ∧ t.queues = s.queues ∧ t.invals = s.invals
    (∀ ctx table pb ps sb ss gq pq : Nat,
      let good := ctx < 16 ∧ table % 8192 = 0 ∧ 0 < gq ∧ gq ≤ 64 ∧ 0 < pq ∧ pq ≤ 96
      let busy := ∃ u ∈ s.teams, u.ctx = ctx ∧ u.state ≠ .saved
      let w := Instr.ctxset ctx table pb ps sb ss gq pq
      (¬good → runs w 1 same) ∧ (good → busy → runs w 2 same)
      ∧ (good → ¬busy → runs w 0 fun t => (∀ c, c ≠ ctx → t.context? c = s.context? c)
          ∧ ∃ held, t.context? ctx = some { id := ctx, table, privBase := pb, privSize := ps, saveBase := sb, saveSize := ss,
                                            gangQuota := gq, poolQuota := pq, held }))
    ∧ (∀ q ctx prio base n template : Nat,
      let good := q < 64 ∧ ctx < 16 ∧ prio < 4 ∧ (∃ j, 4 ≤ j ∧ j ≤ 16 ∧ n = 2 ^ j) ∧ base % 4096 = 0
        ∧ base + 8 * n ≤ 2 ^ 39 ∧ template % 256 = 0
      let idle := (s.queueAt q).items = [] ∧ (s.queueAt q).running = none
      let w := Instr.qcfg q ctx prio base n template
      (¬good → runs w 1 same) ∧ (good → ¬idle → runs w 2 same)
      ∧ (good → idle → runs w 0 fun t => (∀ c, c ≠ q → t.queue? c = s.queue? c)
          ∧ ∃ x, t.queue? q = some x ∧ x.enabled = true ∧ x.ctx = ctx ∧ x.priority = prio ∧ x.ringBase = base
              ∧ x.entries = n ∧ x.template = BitVec.ofNat 64 template ∧ x.items = [] ∧ x.running = none
              ∧ x.generation = ((s.queueAt q).generation + 1) % 2 ^ 24)
      ∧ (64 ≤ q → runs (.qdestroy q) 1 same) ∧ (q < 64 → ¬idle → runs (.qdestroy q) 2 same)
      ∧ (q < 64 → idle → runs (.qdestroy q) 0 fun t => (∀ c, c ≠ q → t.queue? c = s.queue? c)
          ∧ t.queue? q = some { s.queueAt q with enabled := false }))
    ∧ ∀ ctx va pages : Nat, (16 ≤ ctx → runs (.inval ctx va pages) 1 same)
      ∧ (ctx < 16 → ∃ t v, exec (.inval ctx va pages) s = .next t ∧ SameRegs s t ∧ Kept s t ∧ t.invals = s.invals ++ [v]
          ∧ v.ctx = ctx ∧ v.base = va ∧ v.pages = pages
          ∧ (s.hostCommands = [] → t.cmdDone = s.cmdDone ∧ t.cmdStat = s.cmdStat))

/-- R83, R104, R128, R264, R266, R306, R337 and Table 12.4: APERTURE, TRREL, BUDGET, BACKING, FQSET, MCQSET and AUDIT.
That the ring
of FQSET and MCQSET lies below 2^39 (status 1 otherwise) is the model's choice (DESIGN CHOICE, log 45), and that FQSET
starts the queue with nothing written and keeps the next fault number is its reading (DEDUCED, log 27). -/
def Says.DeviceCommands : Prop :=
  ∀ s : State, s.island.computeUp = true →
    let runs := fun (w : Instr) (status : Nat) (p : State → Prop) =>
      ∃ t, exec w s = .next t ∧ SameRegs s t ∧ SameMemory s t ∧ Says.Counted s t status ∧ p t
    let power := fun n : Nat => ∃ j, 6 ≤ j ∧ j ≤ 16 ∧ n = 2 ^ j
    (∀ e k x : Nat, (4096 ≤ e ∨ 3 ≤ k ∨ (k = 1 ∧ 16384 ≤ x) → runs (.aperture e k x) 1 fun t => t.apertures = s.apertures)
      ∧ (e < 4096 → k < 3 → (k = 1 → x < 16384) → runs (.aperture e k x) 0 fun t =>
          ∀ pa, t.target pa = if pa / 2 ^ 39 % 2 ^ 12 ≠ e then s.target pa
            else if k = 1 then .device x else if k = 2 then .hostRange else .unused))
    ∧ (∀ ctx, ctx < 16 → (∃ x, s.trace? ctx = some x ∧ (x.state = .recording ∨ x.state = .settling ∨ x.state = .propagating)) →
        runs (.trrel ctx) 2 fun t => t.traces = s.traces)
    ∧ (∀ ctx, ctx < 16 → s.props = [] → (∀ x ∈ s.traces, x.ctx = ctx → x.state = .ready ∨ x.state = .failed ∨ x.state = .released) →
        (∀ u g l th, s.thread? u g l = some th → th.blocked = .none) →
        runs (.trrel ctx) 0 fun t => ∀ x ∈ t.traces, x.ctx = ctx → x.state = .released ∧ x.nodes = [] ∧ x.readers = [])
    ∧ (∀ c n : Nat, (288 ≤ c ∨ n < 16 ∨ 255 < n → runs (.budget c n) 1 fun t => t.cores = s.cores)
      ∧ (c < 288 → 16 ≤ n → n ≤ 255 → runs (.budget c n) 0 fun t =>
          ∀ k, t.core k = if k = c then { s.core c with budget := n } else s.core k))
    ∧ (∀ base n : Nat, (n % 4 ≠ 0 ∨ 2 ^ 28 < n → runs (.backing base n) 1 fun t => t.backingEntries = s.backingEntries)
      ∧ (n % 4 = 0 → n ≤ 2 ^ 28 → s.launchedOnce = true → runs (.backing base n) 2 fun t => t.backingEntries = s.backingEntries)
      ∧ (n % 4 = 0 → n ≤ 2 ^ 28 → s.launchedOnce = false → runs (.backing base n) 0 fun t =>
          t.backingBase = base ∧ t.backingEntries = n))
    ∧ (∀ base n v : Nat, let good := fun size => power n ∧ base % 4096 = 0 ∧ base + n * size ≤ 2 ^ 39 ∧ 64 ≤ v ∧ v ≤ 127
      (¬good 32 → runs (.fqset base n v) 1 fun t => t.fq = s.fq)
      ∧ (good 32 → runs (.fqset base n v) 0 fun t =>
          t.fq = { configured := true, base, entries := n, vector := v, written := 0, nextId := s.fq.nextId })
      ∧ (¬good 64 → runs (.mcqset base n v) 1 fun t => t.mc = s.mc)
      ∧ (good 64 → runs (.mcqset base n v) 0 fun t =>
          t.mc = { configured := true, base, entries := n, vector := v, head := 0, tail := 0, drop := s.mc.drop, seq := s.mc.seq }))
    ∧ ∀ c e k : Nat, let good := (c < 288 ∨ c = 0xFFFF) ∧ e < 2 ∧ k ≤ 20
      (¬good → runs (.audit c e k) 1 fun t => t.cores = s.cores)
      ∧ (good → runs (.audit c e k) 0 fun t => ∀ x < 288, (t.core x).auditCtl =
          if x = c ∨ c = 0xFFFF then BitVec.ofNat 64 (e * 128 + k) else (s.core x).auditCtl)

/-- R44, R50, R264, R266 and Table 12.4: RESOLVE lets the parked threads of a fault retry, or raises PAGE in them; PREEMPT
makes a running team drain, and is counted only when it is SAVED; RESUME ends a context's hold. -/
def Says.TeamCommands : Prop :=
  ∀ s : State, s.island.computeUp = true →
    (∀ f : PageFault, s.fault? f.id = some f → f.command = none →
      (∃ t, exec (.resolve f.id 0) s = .next t ∧ SameRegs s t ∧ Kept s t ∧ Says.Counted s t 0 ∧ t.fault? f.id = none
        ∧ ∀ l th, t.thread? f.team f.gang l = some th → th.blocked ≠ .fault f.id)
      ∧ ∀ u, s.team? f.team = some u → u.state ≠ .replay → (f.lanes.map Prod.fst).Nodup →
        (∀ l ∈ f.lanes, ∀ th, s.thread? f.team f.gang l.1 = some th → th.blocked = .fault f.id ∧ th.hasHandler) →
        ∃ t, exec (.resolve f.id 1) s = .next t ∧ SameRegs s t ∧ SameMemory s t ∧ Says.Counted s t 0 ∧ t.fault? f.id = none
          ∧ ∀ l ∈ f.lanes, ∀ th old, s.thread? f.team f.gang l.1 = some old → t.thread? f.team f.gang l.1 = some th →
              th.blocked = .none ∧ th.pc = old.trapVec + 384#64 ∧ th.resumeHeader = f.header
              ∧ th.trapRegs = { pc := f.pc, cause := BitVec.ofNat 64 (f.word * 256 + 0x06), info := l.2, depth := true })
    ∧ (∀ id action, s.fault? id = none ∨ 2 ≤ action →
      ∃ t, exec (.resolve id action) s = .next t ∧ SameRegs s t ∧ Kept s t ∧ Says.Counted s t 1 ∧ t.faults = s.faults)
    ∧ (∀ (ctx core slot hold a : Nat) (u : Team) (c : Context), ctx < 16 → (core < 288 ∨ core = 0xFFFF) →
      (slot < 64 ∨ slot = 0xFF) → hold < 2 → s.namedTeams ctx core slot = [u] → s.team? u.uid = some u → u.state = .running →
      u.drainWanted = false → s.context? u.ctx = some c → s.placeSave c u = some a →
      ∃ t u', exec (.preempt ctx core slot hold) s = .next t ∧ SameRegs s t ∧ Kept s t ∧ t.team? u.uid = some u'
        ∧ u'.state = .draining ∧ (s.hostCommands = [] → t.cmdDone = s.cmdDone)
        ∧ (hold = 1 → ∀ x ∈ t.contexts, x.id = ctx → x.held = true))
    ∧ ∀ ctx, ctx < 16 → ∃ t, exec (.resume ctx) s = .next t ∧ SameRegs s t ∧ Kept s t ∧ Says.Counted s t 0
        ∧ ∀ x ∈ t.contexts, x.id = ctx → x.held = false

/-- R265, R267, R268, R307 and R328: QTAIL takes an aligned launch while its ring has room, and otherwise notes that it
dropped it, which a write of 1 to the bit clears; EDWIN applies an aligned edit where translation lets it write, and keeps
one of a page that is being zeroed for another walk (DESIGN CHOICE, log 40); MCHEAD is taken modulo the ring, and EDCTX
modulo 16; a write of any size acts on EDCTX, and a read-only register takes none; the host reads and writes device
memory, and a poisoned sector answers with ones. Sizes of writes other than those of QTAIL, EDWIN and CMDWIN, and how
EDCTX takes a value of 16 or more, are logs 40 and 46 (DESIGN CHOICE), as are the order of a command's operands in its
doublewords, that the ring holds entries of 8 bytes and that a running launch counts as an entry. The clauses on EDWIN
exclude each other: a derived page is a tracked one. -/
def Obligations.HostAccesses : Prop :=
  ∀ s : State, s.island.computeUp = true → s.Canonical →
    (∀ (q : Queue) (a : Nat), s.queue? q.id = some q → q.id < 64 →
      (q.enabled = true → a % 256 = 0 → q.items.length + (if q.running = none then 0 else 1) < q.entries → a < 2 ^ 64 →
        ∃ t, exec (.qtailWrite q.id 8 a) s = .next t ∧ SameRegs s t
          ∧ Stored s t (q.ringBase + 8 * (q.written % q.entries)) (bytesOfNat 8 a)
          ∧ t.queue? q.id = some { q with items := q.items ++ [.record (BitVec.ofNat 64 a)], written := q.written + 1 })
      ∧ ((q.enabled = false ∨ a % 256 ≠ 0 ∨ q.entries ≤ q.items.length + (if q.running = none then 0 else 1)) → a < 2 ^ 64 →
        ∃ t, exec (.qtailWrite q.id 8 a) s = .next t ∧ SameRegs s t ∧ Kept s t
          ∧ t.queue? q.id = some { q with dropped := true })
      ∧ ∀ v : W64, ∃ t, exec (.qstatWrite q.id v) s = .next t ∧ SameRegs s t ∧ Kept s t
          ∧ t.queue? q.id = some { q with dropped := q.dropped && !v.getLsbD 37 })
    ∧ (∀ (n : Nat) (va data : W64), n ≠ 16 ∨ va.toNat % 8 ≠ 0 → exec (.edwinWrite n va data) s = .next s)
    ∧ (∀ (va data e : W64) (a level : Nat), va.toNat % 8 = 0 → canonical va = true →
      s.walkTables s.edCtx va = .leaf a level e →
      (pteDerived e = true → (pteZoa e = false ∨ pteOwn e = 2) → exec (.edwinWrite 16 va data) s = .next s)
      ∧ (pteZoa e = true → pteOwn e = 1 → exec (.edwinWrite 16 va data) s = .next { s with unitWrites := s.unitWrites
          ++ [{ act := .edit, ctx := s.edCtx, va, bytes := bytesOfNat 8 data.toNat }] })
      ∧ (pteZoa e = false → pteTracked e = false → (pteCtx e = s.edCtx ∨ pteCtx e = 16) → pteW e = true →
        leafPhys e va < deviceBytes →
        ∃ t, exec (.edwinWrite 16 va data) s = .next t ∧ SameRegs s t ∧ Quiet s t ∧ t.edCount = s.edCount + 1
          ∧ Stored s t (leafPhys e va) (bytesOfNat 8 data.toNat)))
    ∧ (∀ v : Nat, ∃ t, exec (.mcheadWrite v) s = .next t ∧ t = { s with mc := { s.mc with head := v % s.mc.entries } })
    ∧ (∀ (n : Nat) (v : BitVec 512), exec (.registerWrite 0x50010 n v) s = .next { s with edCtx := v.toNat % 16 }
      ∧ exec (.registerWrite 0x40068 n v) s = .next s ∧ (n ≠ 64 → exec (.registerWrite 0x40000 n v) s = .next s)
      ∧ let d := fun k : Nat => (v.extractLsb' (64 * k) 64).toNat
        (v.extractLsb' 0 8 = 0x04#8 → exec (.registerWrite 0x40000 64 v) s = exec (.inval (d 1) (d 2) (d 3)) s)
        ∧ (v.extractLsb' 0 8 = 0x05#8 → exec (.registerWrite 0x40000 64 v) s = exec (.resolve (d 1) (d 2)) s)
        ∧ (v.extractLsb' 0 8 = 0x0D#8 → exec (.registerWrite 0x40000 64 v) s = exec (.resume (d 1)) s))
    ∧ (∀ (a : Nat) (bs : List Byte), 0 < bs.length → bs.length ≤ 256 → a + bs.length ≤ 2 ^ 39 →
      ∃ t, exec (.hostMemoryWrite a bs) s = .next t ∧ SameRegs s t ∧ Quiet s t ∧ Stored s t a bs)
    ∧ ∀ a n : Nat, 0 < n → a + n ≤ 2 ^ 39 →
      exec (.hostMemoryRead a n) s = .next { s with hostReads := s.hostReads
        ++ [if s.poisonedAt a n then (List.replicate n 0xFF#8, true) else (s.mem.readBytes a n, false)] }

/-! ## Packets -/

/-- Nothing but the island has changed. -/
def Says.IslandOnly (s t : State) : Prop := t = { s with island := t.island }

/-- The way that R272 gives a packet: the first port that its route names, or the second, that is up. -/
def Says.exits (i : Island) (dst n : Nat) : Prop :=
  let e := i.route dst
  let a := (e.extractLsb' 0 4).toNat
  let b := (e.extractLsb' 4 4).toNat
  e.getLsbD 15 = true ∧ (((i.port a).up = true ∧ n = a)
    ∨ ((i.port a).up = false ∧ e.getLsbD 8 = true ∧ (i.port b).up = true ∧ n = b))

/-- A packet of a device answers another: to its source, from that device, on VC1, with its tag and a kind, in whole
flits. -/
def Says.answers (own : BitVec 14) (p a : Packet) (kind : Nat) : Prop :=
  a.kind = kind ∧ a.dst = p.src ∧ a.src = own.toNat ∧ a.vc = 1 ∧ a.tag = p.tag ∧ a.payload.length = 64 * a.flits

/-- R270 to R272, R344 and R345: a packet that enters at a link port and is for another device leaves by the port that its
route names, on VC2; where no port can be used a request is answered with this device's refusal, reason 6, and an answer
is discarded. That a packet of kind 4 or more that finds no port, an answer, is discarded is the model's reading (DEDUCED,
log 48), where R344 speaks of any packet. -/
def Says.Forwarding : Prop :=
  ∀ (s : State) (n : Nat) (p : Packet), n < 12 → (s.island.port n).up = true →
    (s.island.state = .forward ∨ s.island.state = .full ∨ s.island.state = .drain) → p.legal = true →
    p.dst ≠ s.island.deviceId.toNat →
    (∀ m, Says.exits s.island p.dst m → ∃ t, exec (.packetForward n p) s = .next t ∧ Says.IslandOnly s t
      ∧ t.island.sent = s.island.sent ++ [(m, { p with vc := 2 })])
    ∧ ((∀ m, ¬Says.exits s.island p.dst m) →
      (4 ≤ p.kind → ∃ t, exec (.packetForward n p) s = .next t ∧ Says.IslandOnly s t ∧ t.island.sent = s.island.sent)
      ∧ ∀ m, p.kind < 4 → p.src ≠ s.island.deviceId.toNat → Says.exits s.island p.src m →
          ∃ t a, exec (.packetForward n p) s = .next t ∧ Says.IslandOnly s t ∧ t.island.sent = s.island.sent ++ [(m, a)]
            ∧ Says.answers s.island.deviceId p a 6 ∧ a.num 0 1 = 6 ∧ a.num 1 1 = p.kind)

/-- R40, R83, R269, R345, R346, R348 and Table 21.2: a FULL island hands a request of another device to the home of its
address: a read is answered with the bytes, a write is made and acknowledged, an atomic performed and answered; a task
packet joins its queue, or is refused with the reason; in other states requests are refused with reason 5. What a
payload's bytes hold, that kind 5 answers a write, and which of two reasons goes first are logs 47 and 48 (DESIGN CHOICE). -/
def Says.Requests : Prop :=
  ∀ (s : State) (p : Packet), s.Canonical → p.legal = true → p.dst = s.island.deviceId.toNat → p.src ≠ p.dst →
    let pa := p.addr.toNat % 2 ^ 39
    (s.island.state = .full →
      (p.kind = 0 → ∃ t a, exec (.remoteRequestArrival p) s = .next t ∧ SameRegs s t ∧ Kept s t
        ∧ t.outPackets = s.outPackets ++ [a] ∧ Says.answers s.island.deviceId p a 4
        ∧ (s.poisonedAt pa p.size = true → a.poisoned = true)
        ∧ (s.poisonedAt pa p.size = false → a.poisoned = false ∧ a.readData.take p.size = s.mem.readBytes pa p.size))
      ∧ (p.kind = 1 → 0 < p.data.length → ∃ t a, exec (.remoteRequestArrival p) s = .next t ∧ SameRegs s t ∧ Quiet s t
        ∧ Stored s t pa p.data ∧ t.outPackets = s.outPackets ++ [a] ∧ Says.answers s.island.deviceId p a 5)
      ∧ (p.kind = 2 → p.code < 16 → (p.size = 4 ∨ p.size = 8) → s.poisonedAt pa p.size = false →
        let new := atomicNew p.code p.size (s.mem.readNat pa p.size) (p.num 8 8 % 2 ^ 64 % 2 ^ (8 * p.size))
        ∃ t a, exec (.remoteRequestArrival p) s = .next t ∧ SameRegs s t ∧ Quiet s t
          ∧ Stored s t pa (bytesOfNat p.size new.value) ∧ t.outPackets = s.outPackets ++ [a]
          ∧ Says.answers s.island.deviceId p a 4 ∧ a.old = s.mem.readNat pa p.size)
      ∧ (p.kind = 3 → s.duplicate p = false →
        let q := s.queueAt ((p.addr.extractLsb' 14 10).toNat)
        let handle := (p.addr.extractLsb' 14 10).toNat < 64 ∧ q.enabled = true
          ∧ (p.addr.extractLsb' 24 24).toNat = q.generation
        (handle → q.items.length + (if q.running = none then 0 else 1) < q.entries →
          (∃ a l e, s.walkTables q.ctx q.template = .leaf a l e) →
          ∃ t a q', exec (.taskPacketArrival p) s = .next t ∧ SameRegs s t ∧ t.queue? q.id = some q'
            ∧ q'.items = q.items ++ [.packet p] ∧ t.outPackets = s.outPackets ++ [a] ∧ Says.answers s.island.deviceId p a 5
            ∧ a.num 2 1 = 0 ∧ a.num 3 5 = p.ticket % 2 ^ 40)
        ∧ ∀ m, Says.exits s.island p.src m → ∀ r,
            (r = 3 ∧ 64 ≤ (p.addr.extractLsb' 14 10).toNat
              ∨ r = 1 ∧ (p.addr.extractLsb' 14 10).toNat < 64 ∧ q.enabled = false
              ∨ r = 2 ∧ (p.addr.extractLsb' 14 10).toNat < 64 ∧ q.enabled = true
                  ∧ (p.addr.extractLsb' 24 24).toNat ≠ q.generation
              ∨ r = 4 ∧ handle ∧ q.entries ≤ q.items.length + (if q.running = none then 0 else 1)) →
            ∃ t a, exec (.taskPacketArrival p) s = .next t ∧ SameRegs s t ∧ Kept s t ∧ t.queues = s.queues
              ∧ t.island.sent = s.island.sent ++ [(m, a)] ∧ Says.answers s.island.deviceId p a 6 ∧ a.num 0 1 = r))
    ∧ ((s.island.state = .forward ∨ s.island.state = .drain) → ∀ m, Says.exits s.island p.src m →
      ∀ w, (w = Instr.remoteRequestArrival p ∧ p.kind < 3 ∨ w = Instr.taskPacketArrival p ∧ p.kind = 3) →
        ∃ t a, exec w s = .next t ∧ Says.IslandOnly s t ∧ t.island.sent = s.island.sent ++ [(m, a)]
          ∧ Says.answers s.island.deviceId p a 6 ∧ a.num 0 1 = 5)

/-- R83, R86, R247, R345 to R347: a response binds the load that it answers, beneath the thread's own earlier stores; an
acknowledgement of stage 1 of a task packet settles its ticket and gives its weight back; a refusal, from whatever island,
settles it, gives back the weight that its payload names, and leaves a record; an answer to nothing is discarded. That an
answer to nothing is discarded is the model's reading (DEDUCED, log 48). -/
def Says.Answers : Prop :=
  ∀ (s : State) (p : Packet), p.legal = true → p.dst = s.island.deviceId.toNat → s.island.state = .full →
    (∀ r o q, p.kind = 4 → p.poisoned = false → s.remoteOf p.tag p.src = some r → r.op = some o.uid → r.store = none →
      r.watcher = none → r.command = none → r.reader = none → r.commit = none → r.unit = false → s.op? o.uid = some o → o.kind = .load q →
      let came := (if r.packet.size = 64 then p.readData.drop (q.pa % 64) else p.readData).take q.size
      ∃ t v, exec (.responseArrival p) s = .next t ∧ SameRegs s t ∧ Kept s t ∧ r ∉ t.remotes
        ∧ t.op? o.uid = some { o with kind := .load { q with bound := some v } }
        ∧ (s.ownBefore o r = [] → v = loadValue q.size q.signExtend came)
        ∧ v = loadValue q.size q.signExtend (overlay (s.ownBefore o r) q.pa came))
    ∧ (∀ la tk, p.num 1 1 = 3 → s.ticketOf p = some (la, tk) → s.launch? la.uid = some la → tk.pooled = false →
      s.traces = [] →
      let settled := fun (t : State) (w : Nat) => ∃ l', t.launch? la.uid = some l' ∧ l'.returned = la.returned + w
        ∧ l'.unsettled = la.unsettled.filter fun y => y.number != tk.number
      (p.kind = 5 → p.num 2 1 % 2 = 1 → ∃ t, exec (.acknowledgementArrival p) s = .next t ∧ SameRegs s t ∧ Kept s t ∧ settled t tk.weight)
      ∧ (p.kind = 6 → s.mc.hasRoom = true →
        ∃ t, exec (.negativeAckArrival p) s = .next t ∧ SameRegs s t ∧ Quiet s t ∧ settled t (p.num 8 8) ∧ t.mc.seq = s.mc.seq + 1))
    ∧ (s.remotes = [] → s.ticketOf p = none →
      (p.kind = 4 → exec (.responseArrival p) s = .next s) ∧ (p.kind = 5 → exec (.acknowledgementArrival p) s = .next s)
      ∧ (p.kind = 6 → exec (.negativeAckArrival p) s = .next s))

/-! ## The island -/

/-- R342, R343 and R354: the steps of a link port. A bad flit whose replay succeeds counts as corrected; eight failures
make a retrain; the port is retired when a run of eight failures follows the third retrain. More than 2^20 corrected
errors in a window, those that replays have shown and others, retire it. A link that goes down leaves its port unused
until it is up again; a retired port comes back by a command. That the run of eight failures behind the third retrain is
the one that retires a port is the model's reading (DEDUCED, log 49). -/
def Says.Links : Prop :=
  ∀ (s : State) (n : Nat), n < 12 → s.island.ports.length = 12 → (s.island.port n).retry = [] →
    let q := s.island.port n
    let becomes := fun (w : Instr) (q' : Port) => ∃ t, exec w s = .next t ∧ SameRegs s t ∧ Quiet s t
      ∧ ∀ k < 12, t.island.port k = if k = n then q' else s.island.port k
    let gone : Port := { q with up := false, retired := true }
    let fresh : Port := { q with up := true, retired := false, failedReplays := 0, failedRetrains := 0, errors := 0 }
    (q.up = true →
      becomes (.linkFlitError n true) { q with failedReplays := 0, failedRetrains := 0, errors := q.errors + 1 }
      ∧ (q.failedReplays < 7 → becomes (.linkFlitError n false) { q with failedReplays := q.failedReplays + 1 })
      ∧ (7 ≤ q.failedReplays → q.failedRetrains < 3 →
        becomes (.linkFlitError n false) { q with failedReplays := 0, failedRetrains := q.failedRetrains + 1 })
      ∧ (7 ≤ q.failedReplays → 3 ≤ q.failedRetrains →
        becomes (.linkFlitError n false) { gone with failedReplays := 0, failedRetrains := q.failedRetrains + 1 })
      ∧ (∀ c, q.errors + c ≤ 2 ^ 20 → becomes (.linkErrorWindow n c) { q with errors := 0 })
      ∧ (∀ c, 2 ^ 20 < q.errors + c → becomes (.linkErrorWindow n c) { gone with errors := 0 })
      ∧ becomes (.linkPortDown n) { q with up := false })
    ∧ (q.up = false → q.retired = false → (s.island.state = .forward ∨ s.island.state = .full ∨ s.island.state = .drain) →
      becomes (.linkUp n) fresh)
    ∧ (q.retired = true → s.island.managementUp = true → becomes (.portRestoreCommand n) fresh)

/-- R274, R275, R348 to R351 and Table 12.9: the island's rail and resets leave the compute side alone; the compute side's
reset, its loss of power and a regulator's trip end everything on it but retired cores, and take a FULL island to DRAIN,
which becomes FORWARD once nothing forwarded is open; a hold of boot that waits for the management command stays through a
reset of the compute side. An island whose compute side still runs comes back FULL. That a hold stays through a reset of
the compute side, and that these resets may come in every state, are the model's reading (DEDUCED, log 50); that CMDDONE
is 0 afterwards is its choice (DESIGN CHOICE, log 5). -/
def Says.Power : Prop :=
  ∀ s : State,
    let i := s.island
    let after := fun (w : Instr) (p : State → Prop) => ∃ t, exec w s = .next t ∧ p t
    (i.state = .off → after .islandRailGood fun t => t = { s with island := { i with state := .boot } })
    ∧ (after .islandRailLost fun t => Says.IslandOnly s t ∧ t.island.state = .off ∧ t.island.step = 0
        ∧ t.island.computeUp = i.computeUp ∧ t.island.port12Up = false ∧ t.island.managementUp = false
        ∧ ∀ q ∈ t.island.ports, q.up = false ∧ q.retired = false)
    ∧ (after .islandOnlyReset fun t => Says.IslandOnly s t ∧ t.island.state = .boot ∧ t.island.step = 0
        ∧ t.island.computeUp = i.computeUp ∧ t.island.port12Up = false
        ∧ ∀ k, (t.island.port k).up = false ∧ (t.island.port k).retired = (i.port k).retired)
    ∧ (∀ w held, (w = Instr.computeOnlyReset ∧ held = false ∨ w = Instr.computePowerOff ∧ held = true
          ∨ (∃ k, w = Instr.regulatorTrip k) ∧ held = true) → i.forwarded = [] →
        after w fun t => t.teams = [] ∧ t.ops = [] ∧ t.launches = [] ∧ t.tasks = [] ∧ t.traces = [] ∧ t.claims = []
          ∧ t.contexts = [] ∧ t.queues = [] ∧ t.mem.cells = [] ∧ t.l2 = [] ∧ t.cmdDone = 0
          ∧ (∀ c ∈ s.cores, c.2.retired = true → (c.1, { Core.reset with retired := true }) ∈ t.cores)
          ∧ t.island.computeUp = false ∧ t.island.port12Up = false ∧ t.island.bootHeld = (held || i.bootHeld)
          ∧ t.island.state = if i.state = .full then .drain else i.state)
    ∧ (i.state = .drain → i.forwarded = [] → after .islandDrainComplete fun t =>
        t = { s with island := { i with state := .forward } })
    ∧ (i.state = .forward → i.held = false → 3 ≤ i.step → i.computeUp = true → i.port12Up = false → i.lost = [] →
        after .islandReturnFull fun t => SameRegs s t ∧ Kept s t ∧ t.teams = s.teams ∧ t.island.state = .full
          ∧ t.island.port12Up = true ∧ t.island.unavailable = false)
    ∧ (i.computeUp = true → s.outPackets = [] → (i.state = .off ∨ (i.state = .boot ∧ i.held = true)) →
        after .islandUnavailable fun t => t = { s with island := { i with unavailable := true } })

/-- The SHA-384 digest of bytes. -/
def Says.digest (bs : List Nat) : BitVec 384 := BitVec.ofNat 384 (ofBytes (sha384 bs))

/-- An image that R277 lets boot use: its manifest's digest is that of its contents, the fuses hold the digests of the two
public keys in the manifest and a version that is not above it, and both signatures over the manifest verify. The standards
of the hash and of the signatures, and the order of a manifest's bytes, stand outside the spec (PRESUMED, log 58). -/
def Says.accepted (i : Island) (m : Image) : Prop :=
  let rsa := toBytes 384 m.rsaModulus.toNat ++ toBytes 8 m.rsaExponent.toNat
  let slh := toBytes 32 m.slhKey.toNat
  let manifest := toBytes 48 m.digest.toNat ++ toBytes 8 m.version.toNat ++ rsa ++ slh
  m.digest = Says.digest (m.contents.map BitVec.toNat) ∧ i.rsaKeyDigest = Says.digest rsa ∧ i.slhKeyDigest = Says.digest slh
  ∧ i.minVersion ≤ m.version.toNat ∧ rsaVerifies m.rsaModulus.toNat m.rsaExponent.toNat manifest m.rsaSignature.toNat = true
  ∧ slhVerifies slh manifest (toBytes 7856 m.slhSignature.toNat) = true

/-- R276 to R278, R352, Tables 12.10 and 21.4: each step of boot follows the one before it; a step whose images are all
accepted succeeds, and one with an image that is not holds boot; step 3 succeeds if every link trains and the routing
table loads; after it the island forwards, after step 6 it is FULL and the compute side runs. Each image read is listed
with its digest, its version and whether it was accepted. The responder's image takes the place of the flash's; an
attestation reports what was read, signed by the two identity keys (the algorithms' details and the order of the signed
bytes: PRESUMED, log 58). -/
def Obligations.Boots : Prop :=
  ∀ s : State,
    let i := s.island
    let after := fun (w : Instr) (p : Island → Prop) => ∃ t, exec w s = .next t ∧ Says.IslandOnly s t ∧ p t.island
    let loads := fun (w : Instr) (ms : List Image) (p : Island → Prop) =>
      after w fun j =>
        (open Classical in if ∀ m ∈ ms, Says.accepted i m then j.step = i.step + 1 ∧ j.held = false ∧ p j
          else j.step = i.step ∧ j.held = true ∧ j.state = i.state ∧ j.computeUp = i.computeUp)
        ∧ ∃ es, j.images = i.images ++ es ∧ es.map ImageEntry.version = ms.map Image.version
          ∧ es.map ImageEntry.digest = ms.map (fun m => Says.digest (m.contents.map BitVec.toNat))
          ∧ ∀ (k : Nat) (e : ImageEntry) (m : Image), es[k]? = some e → ms[k]? = some m → (e.verified = true ↔ Says.accepted i m)
    (i.state = .boot → i.held = false →
      (i.step = 0 → after (.rootOfTrustCheck true) (fun j => j = { i with step := 1 })
        ∧ after (.rootOfTrustCheck false) fun j => j = { i with held := true })
      ∧ (i.step = 1 → ∀ m, i.recovery = none ∨ i.recovery = some m → loads (.islandFirmwareLoad m) [m] fun j => j.state = .boot)
      ∧ (i.step = 2 → ∀ (ok : BitVec 12) (c : IslandConfig), i.ports.length = 12 → (∀ q ∈ i.ports, q.retired = false) →
        after (.linkTraining ok c) fun j => j.state = .forward ∧ j.managementUp = true ∧ j.deviceId = c.deviceId
          ∧ (c.loads = true → j.routes = c.routes) ∧ (∀ k < 12, (j.port k).up = ok.getLsbD k ∧ (j.port k).retired = !ok.getLsbD k)
          ∧ (ok = BitVec.allOnes 12 ∧ c.loads = true → j.step = 3 ∧ j.held = false)
          ∧ (ok ≠ BitVec.allOnes 12 ∨ c.loads = false → j.step = 2 ∧ j.held = true)))
    ∧ (i.state = .boot → i.held = true → i.step = 1 → i.replaced = false →
      ∀ m, after (.recoveryImage m) fun j => j = { i with recovery := some m, replaced := true })
    ∧ (i.state = .forward → i.held = false → i.computeUp = false → ∀ ms : List Image,
      (i.step = 3 → loads (.bootImageLoad ms) ms fun j => j.state = .forward)
      ∧ (i.bootHeld = false → i.step = 4 → loads (.bDieRelease ms) ms fun j => j.state = .forward)
      ∧ (i.bootHeld = false → i.step = 5 → loads (.computeDieRelease ms) ms fun j =>
          j.state = .full ∧ j.computeUp = true ∧ j.port12Up = true))
    ∧ (i.managementUp = true →
      (∀ nonce, after (.attestationRequest nonce) fun j => ∃ r : Report, j = { i with reports := i.reports ++ [r] }
          ∧ r.nonce = nonce ∧ r.deviceId = i.deviceId ∧ r.state = i.state ∧ r.images = i.images
          ∧ r.rsaSignature.toNat = rsaSign Config.identityModulus.toNat Config.identityPrivate.toNat r.message
              (bytesOf (Config.signingSalt s.tick)) % 2 ^ 3072
          ∧ r.slhSignature.toNat = ofBytes (identitySecret.sign r.message (bytesOf (Config.signingRandom s.tick))) % 2 ^ 62848)
      ∧ (i.bootHeld = true → after .bootResumeCommand fun j => j = { i with bootHeld := false }))

/-- R304, R326, R327, R335, R353, R354 and Tables 20.1 and 21.5: an uncorrectable error poisons its sector and changes no
byte; a corrected one changes no data, and counts; one of the pool kills the team whose units it struck. Past half an
array's threshold a core's margin is withdrawn at once; two windows that began at nominal voltage (log 52, DESIGN CHOICE)
and meet the threshold retire it; a command brings it back. -/
def Obligations.StorageErrors : Prop :=
  ∀ s : State,
    (∀ sec, sec < 2 ^ 33 → exec (.l2Scrub sec .clean) s = .next s
      ∧ (∃ t, exec (.l2Scrub sec .corrected) s = .next t ∧ SameRegs s t ∧ Kept s t)
      ∧ ∀ w, (w ∈ [Instr.l2Scrub sec .uncorrectable, .storageError (.hbm sec) false, .storageError (.l2Data sec) false]
            ∨ w = .storageError (.syncLine sec) false ∧ sec / 4 ∈ s.syncLines) →
          ∃ t, exec w s = .next t ∧ SameRegs s t ∧ t.mem = s.mem ∧ (t.l2Sector sec).poisoned = true
            ∧ ∀ k, k ≠ sec → t.l2Sector k = s.l2Sector k)
    ∧ (∀ site, site.present = true → (∀ sec, site = .syncLine sec → sec / 4 ∈ s.syncLines) →
        ∃ t, exec (.storageError site true) s = .next t ∧ SameRegs s t ∧ Kept s t)
    ∧ (∀ core, core < 288 → ∃ t, exec (.storageError (.pool core none) true) s = .next t
        ∧ (t.core core).windowCount .pool 0 = (s.core core).windowCount .pool 0 + 1
        ∧ (t.core core).marginWithdrawn
            = ((s.core core).marginWithdrawn || decide (16 < 2 * ((s.core core).windowCount .pool 0 + 1))))
    ∧ (∀ core sec, core < 288 → ∃ t, exec (.storageError (.l1 core sec) false) s = .next t ∧ SameRegs s t ∧ Kept s t
        ∧ ∀ x ∈ (t.core core).l1, x.sector ≠ sec)
    ∧ (∀ core u, s.team? u.uid = some u → u.kill = none → u.core = core → u.state ≠ .saved → u.state ≠ .replay →
        core < 288 → core % 2 = 0 →
        ∃ t u', exec (.storageError (.pool core (some u.uid)) false) s = .next t ∧ t.team? u.uid = some u'
          ∧ u'.state = .killed ∧ ∃ x, u'.kill = some x ∧ x.cause = 0x0D ∧ x.kind = 1)
    ∧ (s.island.computeUp = true → ∀ core n, core < 288 → ∀ a : CoreArray,
        let c := s.core core
        let count := c.windowCount a n
        let limit := match a with
          | .pool => 16
          | .l1 | .icache => 64
          | .matrix => 4
        ∃ t, exec (.coreErrorWindow core a n) s = .next t ∧ SameRegs s t
          ∧ (t.core core).marginWithdrawn = (c.marginWithdrawn || decide (limit < 2 * count))
          ∧ ((t.core core).retired = true ↔ c.retired = true
              ∨ (c.nominal a = true ∧ limit ≤ count ∧ limit ≤ c.lastWindow a)))
    ∧ (s.island.managementUp = true → ∀ core, core < 288 → ∃ t, exec (.coreUnretireCommand core) s = .next t ∧ SameRegs s t
        ∧ Kept s t ∧ (t.core core).retired = false)

/-! ## Encoding -/

/-- R132 to R134, R141, R142 and the words that the specification writes out for its examples. -/
def Obligations.EncodedWords : Prop :=
  decode 0xF0000F20#32 = .ok (.clauseHeader 0#12 0#4 15#4 2#4 0#1)
  ∧ decode 0x141A2400#32 = .ok (.rep 3#6 2#3 1#3 1#3)
  ∧ decode 0x1600000A#32 = .ok (.grd 1#1 2#3)
  ∧ decode 0x28081007#32 = .ok (.addi 2#7 2#7 7#11)
  ∧ decode 0x12000000#32 = .ok .exit
  ∧ decode 0x20600000#32 = .ok .eret
  ∧ decode 0x6CA04103#32 = .ok (.fcmp 1#2 1#2 1#7 2#7 3#7)
  ∧ decode 0xB2800000#32 = .ok (.fence 1#2 0#2)
  ∧ decode 0xC4C00414#32 = .ok (.mma 0#1 1#1 1#1 0#1 0#7 8#7 20#7)
  ∧ decode 0xCC410100#32 = .ok (.tail 4#7 2#7)
  ∧ decode 0x00000000#32 = .error (.reservedMajor 0)

/-- R133 and R144: an encoded instruction decodes to itself, with every operand at every value that its fields admit. -/
def Obligations.DecodeEncode : Prop := ∀ (i : Instr) (w : W32), encode i = some w → decode w = .ok i

/-- R133 and R145: a word that decodes is the one encoding of its instruction, no bit of it dropped; a word of a reserved
major decodes to nothing. -/
def Obligations.EncodeDecode : Prop :=
  (∀ (w : W32) (i : Instr), decode w = .ok i → encode i = some w)
  ∧ ∀ w : W32, let m := (w.extractLsb' 25 7).toNat
      (m = 0 ∨ m = 0x2F ∨ m = 0x3F ∨ m = 0x47 ∨ (0x6D ≤ m ∧ m ≤ 0x77)) → ∃ e, decode w = .error e

/-! ## Steps -/

/-- R25 and R48: a step with a path on its agenda runs the word at which the path stands: its instruction, under REP that
of the repetition, or ILLEGAL where it is none; the state then settles and time goes on. A replay whose word is one that
no audited task has issued ends instead (R337, R338). That a path on the agenda goes first, and that the state settles at
the end of each step, is the form of the model's step (DESIGN CHOICE, log 1); R25 and R48 give what a word of a path does. -/
def Says.StepRunsWord : Prop :=
  ∀ (s : State) (c : Cursor) (p : Path), s.agenda = some c → s.path? c = some p →
    let idle := { s with agenda := none }
    let ready := { s with agenda := none, cur := some c }
    let word := p.words.getD p.pos 0#32
    let after := fun o : Host.Outcome State Fault Refusal =>
      match o with
      | .next t => Host.Outcome.next (({ t with cur := none }).settle idle).noteIdle.advance
      | o => o
    let runs := fun i => (idle.diverges c i = false → step s = after (exec i ready))
      ∧ (idle.diverges c i = true → step s = after (.next (idle.endReplay c.team false)))
    (∀ x i, idle.issueAt c = some x → x.replays = false → idle.diverges c i = false)
    ∧ (∀ i, p.rep = none → decode word = .ok i → runs i)
    ∧ (∀ e, p.rep = none → decode word = .error e → step s = after (illegalWord ready))
    ∧ ∀ r i, p.rep = some r → word.extractLsb' 25 7 ≠ 0x0B#7 → decode (r.word word) = .ok i → runs i

/-- R6 and R58: a step with nothing on its agenda is one of the actions that may happen, or, where none may, lets time go
on; which of them, the specification does not say. -/
def Says.StepChooses : Prop :=
  ∀ s : State, s.agenda = none → (s.actions = [] → step s = .next s.advance)
    ∧ (s.actions ≠ [] → ∃ a ∈ s.actions, step s = act s.advance a)

/-- R145, R299, R314 and Table 18.1: a word that is no instruction raises ILLEGAL in the active threads, with the word in
TRAPINFO, a REP at the word that it repeats, and changes no register and no memory. -/
def Says.UndecodableWord : Prop :=
  ∀ (s : State) (i : Issue) (e : DecodeError), s.issue = some i → i.replays = false → decode i.word = .error e →
    (∀ l ∈ i.active, (i.thread l).hasHandler) →
    let repeated := if (i.path.words.getD (i.path.pos + 1) 0#32).extractLsb' 25 7 = 0x0B#7 then i.path.pos + 2 else i.path.pos + 1
    let site := { i with path := { i.path with pos := repeated } }
    ∃ t, illegalWord s = .next t ∧ SameRegs s t ∧ SameMemory s t
      ∧ (¬Clause.isRep i.word → ∀ l ∈ i.active, Entered t i l 0x01 (i.word.setWidth 64) i.path.prefixAddr)
      ∧ (Clause.isRep i.word → ∀ l ∈ i.active, Entered t site l 0x01 (i.word.setWidth 64) i.path.prefixAddr)

/-- R59 and Table 3.1: what a register field reads: the window and y registers, and the operands zero, lane, gang, core
and ord. -/
def Says.Operands : Prop :=
  ∀ (i : Issue) (l : Nat) (f : BitVec 7),
    (f.toNat < 96 → i.val l f = (i.thread l).x.getD ((i.thread l).winBase + f.toNat) 0#64)
    ∧ (96 ≤ f.toNat → f.toNat < 112 → i.val l f = (i.thread l).y.getD (f.toNat - 96) 0#64)
    ∧ i.val l 112#7 = 0#64 ∧ i.val l 113#7 = BitVec.ofNat 64 l ∧ i.val l 114#7 = BitVec.ofNat 64 i.cursor.gang
    ∧ i.val l 115#7 = BitVec.ofNat 64 i.team.core
    ∧ (i.launch.traced = false → i.launch.det = false → i.val l 116#7 = 0#64)
    ∧ (i.launch.traced = true ∨ i.launch.det = true → i.val l 116#7 = i.task.ordinal)

/-- R59, R60, R133, R313 and R316, of MOV: a source of 117 to 127 and a destination that no word may write raise ILLOPND
with the field; then a window register that the thread does not own raises WINDOW with its number. -/
def Says.FieldTraps : Prop :=
  ∀ (s : State) (i : Issue) (l : Nat) (d a : BitVec 7), s.issue = some i → i.replays = false → i.active = [l] →
    (i.thread l).hasHandler →
    let traps := fun (cause : Nat) (info : W64) => ∃ t, exec (.mov d a) s = .next t ∧ SameRegs s t ∧ SameMemory s t
      ∧ Entered t i l cause info i.path.prefixAddr
    let base := (i.thread l).winBase
    let owned := (i.thread l).x.length
    (117 ≤ a.toNat → d.toNat ≤ 112 → traps 0x02 (BitVec.ofNat 32 a.toNat ++ i.word))
    ∧ (112 < d.toNat → a.toNat < 117 → traps 0x02 (BitVec.ofNat 32 d.toNat ++ i.word))
    ∧ (d = 112#7 → a.toNat < 96 → owned ≤ base + a.toNat → traps 0x0A (BitVec.ofNat 64 (base + a.toNat)))
    ∧ (d.toNat < 96 → owned ≤ base + d.toNat → 96 ≤ a.toNat → a.toNat < 117 →
        traps 0x0A (BitVec.ofNat 64 (base + d.toNat)))

/-- R299, R302 to R304: a trap of class T enters the thread's handler; without a handler table it kills the team, as do
the causes of class K; in handler mode it kills the team with DOUBLE. Registers and memory stay. In a replay, whose task
took no trap (R337), no thread enters its handler. That the record of a kill without an entry has the address of the word
as its pc is the model's reading (DEDUCED, log 33), where Table 18.4 says TRAPPC, or 0. -/
def Says.TrapEntries : Prop :=
  ∀ (s : State) (u g l : Nat) (site : TrapSite) (tr : Trap) (lanes : W32) (th : Thread) (team : Team),
    s.thread? u g l = some th → s.team? u = some team → team.kill = none →
    (team.state = .replay → ∀ v h k a b, s.thread? v h k = some a → (s.trapEntry u g l site tr lanes).thread? v h k = some b →
      b.trapRegs = a.trapRegs)
    ∧ (team.state ≠ .replay →
    let t := s.trapEntry u g l site tr lanes
    let killClass := tr.cause = 0x0C ∨ tr.cause = 0x0D ∨ tr.cause = 0x15 ∨ tr.cause = 0x19
    let killed := fun (cause first : Nat) (info pc : W64) => ∃ u' k, t.team? u = some u' ∧ u'.state = .killed
      ∧ u'.kill = some k ∧ k.cause = cause ∧ k.firstCause = first ∧ k.info = info ∧ k.pc = pc ∧ k.lanes = lanes
    SameRegs s t ∧ SameMemory s t ∧ SameHoldings s t ∧ SameMasks s t
    ∧ (killClass → killed tr.cause 0 tr.info site.pc)
    ∧ (¬killClass → th.trapDepth = true →
        killed 0x15 (th.trapCause.toNat % 256) (BitVec.ofNat 64 (th.trapCause.toNat % 256)) th.trapPc)
    ∧ (¬killClass → th.trapDepth = false → th.trapVec = 0#64 → killed tr.cause 0 tr.info site.pc)
    ∧ (¬killClass → th.trapDepth = false → th.trapVec ≠ 0#64 → ∃ th', t.thread? u g l = some th'
        ∧ th'.trapRegs = { pc := site.pc, cause := BitVec.ofNat 64 (site.word * 256 + tr.cause), info := tr.info, depth := true }
        ∧ th'.pc = th.trapVec + BitVec.ofNat 64 (64 * tr.cause) ∧ th'.resumeHeader = site.header ∧ th'.repState = th.repState))

/-! ## Reset -/

/-- R276, Table 12.4 and Table 12.9: before its island has power the package holds no team, launch, queue or context, no
queue is enabled, no command is counted, no ring is set up, no link is up, every core has a budget of 128 and AUDITCTL 0,
and every register of BAR0 reads as zero. What stands in device memory is the model's choice (assumption 2). The island
OFF with its ports down and no step done, no context, queue or ring, CMDDONE 0 and BAR0 reading 0 are the model's choice
(DESIGN CHOICE, logs 4 and 5). -/
def Says.Resets : Prop :=
  let s := State.reset
  s.island.state = .off ∧ s.island.computeUp = false ∧ (∀ n, (s.island.port n).up = false) ∧ s.teams = [] ∧ s.tasks = []
  ∧ s.launches = [] ∧ s.contexts = [] ∧ s.queues = [] ∧ s.traces = [] ∧ s.claims = [] ∧ s.mc.configured = false
  ∧ s.fq.configured = false ∧ s.cmdDone = 0 ∧ s.launchedOnce = false ∧ s.inbox = [] ∧ (∀ off, s.readRegister off = 0#64)
  ∧ (∀ c, (s.core c).auditCtl = 0#64 ∧ (s.core c).budget = 128 ∧ (s.core c).retired = false ∧ (s.core c).tlb = [])
  ∧ step s = .next s.advance

/-- The model's memory has its canonical form at reset (assumption 2 names what an unlisted byte reads as). -/
def Says.ResetCanonical : Prop := State.reset.Canonical

/-- Every step, of whatever word, device unit or input, leaves device memory in its canonical form: addresses strictly
rising, and no listed byte equal to what an unlisted one reads as, which is the model's choice (assumption 2). -/
def Obligations.StepKeepsCanonical : Prop :=
  ∀ s t : State, s.Canonical → step s = .next t → t.Canonical

/-! ## Statements of several parts -/

/-- R169, R171, R172, R175 and R176: the words that act on whole registers, and the unary and shift words element by element. -/
def Obligations.RegisterWords : Prop := Says.WholeRegisterWords ∧ Says.UnaryAndShiftWords

/-- R173, R175 and R177 to R180: compares, predicate operations and packed operations. -/
def Obligations.PredicateAndPackedWords : Prop := Says.PredicateWords ∧ Says.PackedWords

/-- R77, R184 to R186, R188, R189, R194 and Tables 8.3 and 8.4: the other floating-point words, and the values of the conversions. -/
def Obligations.FloatWords : Prop := Says.FloatSelectAndCompare ∧ Says.ConversionAndFunctionWords ∧ Says.ConversionValues

/-- R68, R74, R80, R183, R194, R195 and Table 8.6: NaN operands, invalid operations, infinities, signed zeros, rounding of NaNs and of values that the format has, and the values of the special functions. -/
def Obligations.FloatRules : Prop := Says.FloatSpecialCases ∧ Says.RoundingKeepsValues ∧ Says.FunctionValues ∧ Says.ReciprocalAndRoots

/-- R198 to R205 and Table 8.8: the words that move values between lanes. -/
def Obligations.CrossLaneWords : Prop := Says.LaneMoves ∧ Says.ScanWords ∧ Says.ScanTable

/-- R141, R142 and R155: headers, prefixes and repetitions, and the steps of a REP. -/
def Obligations.ClauseWords : Prop := Says.HeadersAndPrefixes ∧ Says.Repetitions ∧ Says.RepSteps

/-- R59, R60, R133, R156, R313 and R316: what a register field names, the window, and the traps of fields that name nothing. -/
def Obligations.RegisterWindow : Prop := Says.WindowBase ∧ Says.Operands ∧ Says.FieldTraps

/-- R30, R154, R157 to R159 and R187: the lane masks, whom they release, and the votes. -/
def Obligations.MaskAndVoteWords : Prop := Says.MaskWords ∧ Says.MaskReleases ∧ Says.Votes

/-- R53, R160, R161, R165, R166 and R210: YIELD, ICINV, REWARP, CNTC, CNTI, prefetch and discard. That CNTC grows from one read to the next outside DET is log 9 (DESIGN CHOICE), and that a prefetch keeps what it fills until something evicts it is log 10 (DESIGN CHOICE). -/
def Obligations.HintWords : Prop := Says.RegroupAndHints ∧ Says.Counters ∧ Says.PrefetchAndDiscard

/-- R86, R206, R207 and R313: stores, and the alignment of loads and stores. -/
def Obligations.StoresAndAlignment : Prop := Says.Stores ∧ Says.Alignment

/-- R153: CALL, CALLI and RET. -/
def Obligations.CallsAndReturns : Prop := Says.Calls ∧ Says.Returns

/-- R92, R211 to R213 and Table 9.3: what an atomic word asks for, and the value of each operation. -/
def Obligations.Atomics : Prop := Says.AtomicWords ∧ Says.AtomicValues

/-- R86, R87, R89, R92, R138 and R207: how loads, stores and atomics that are under way end. -/
def Obligations.MemoryCompletion : Prop := Says.LoadCompletion ∧ Says.StoreCompletion ∧ Says.AtomicCompletion

/-- R214 and R215: WAITF and FENCE. -/
def Obligations.WaitsAndFences : Prop := Says.WaitOnMemory ∧ Says.Fences

/-- R216 to R218: BARI, BARA, BARW, BARS and GBAR. -/
def Obligations.BarrierWords : Prop := Says.Barriers ∧ Says.GridBarrier

/-- R226 to R228 and R321: which engine commands are valid, and which bytes a copy writes. -/
def Obligations.CopyDefinition : Prop := Says.CommandChecks ∧ Says.CopyLayout

/-- R94, R227 and R228: how copy and gather commands proceed. That elements are made in ascending order, one or more in a step, is log 35 (DESIGN CHOICE). -/
def Obligations.EngineTransfers : Prop := Says.CopyTransfers ∧ Says.GatherCommands

/-- R96, R219, R220 and R330: transactions, and their commits. -/
def Obligations.Transactions : Prop := Says.TransactionWords ∧ Says.TransactionalAccesses ∧ Says.DoomingWords ∧ Says.Commits

/-- R39, R45, R106, R107 and R244 to R248: SPAWN, SPAWNR and TAIL. -/
def Obligations.TaskWords : Prop := Says.Spawns ∧ Says.WeightDealt ∧ Says.Tails ∧ Says.SpawnCompletion

/-- R125 to R127, R249, R250 and Table 5.11: CLAIM, how its result arrives, and the words that act on entries. -/
def Obligations.ClaimWords : Prop := Says.ClaimWords ∧ Says.ClaimDelivery ∧ Says.EntryWords

/-- R108 to R112, R117 and R253 to R255: TRCON, TRCOFF, TDIG and TSTAT, and stores and recorded reads of tracked granules. -/
def Obligations.TraceWords : Prop := Says.TraceWords ∧ Says.TracedStores ∧ Says.TracedReads

/-- R78, R229, R231 to R238 and R314: where matrix words may issue, and what an MMA asks for. -/
def Obligations.MatrixWords : Prop := Says.MatrixUniform ∧ Says.MatrixMultiply

/-- R78, R138, R230, R239, R240 and R340: the value of each element of a K-step, and how an MMA ends. -/
def Obligations.MatrixResults : Prop := Says.MatrixElements ∧ Says.MatrixCompletion

/-- R76, R230, R241 and R242: ACCRD, ACCWR and ACCZ, and their conversions. -/
def Obligations.AccumulatorWords : Prop := Says.AccumulatorWords ∧ Says.AccumulatorRead ∧ Says.TileConversion

/-- R37 to R39, R41, R43, R49 and R57: the dispatch of a launch and the admission of a task. -/
def Obligations.LaunchesAndTeams : Prop := Says.Dispatches ∧ Says.Admissions

/-- R39, R49, R303, R305 and R306: how a task ends, and how the drain of a killed team ends. -/
def Obligations.TeamEnds : Prop := Says.TaskEnds ∧ Says.Kills

/-- R54, R105, R119, R120 and R295: the reckoner takes the least STALE task, and DET grants, stated of atomics, go to the least key. -/
def Obligations.ReckonerAndGrants : Prop := Says.LeastChosen ∧ Says.Reckons ∧ Says.Grants

/-- R44, R50 to R52 and R337 to R339: saving and restoring teams, and the audit of a task. -/
def Obligations.PreemptionsAndAudits : Prop := Says.Preemptions ∧ Says.Audits ∧ Says.ReplayedAccesses

/-- R261 to R264 and R310: translation-table walks, page faults and INVAL. -/
def Obligations.WalksAndFaults : Prop := Says.Walks ∧ Says.FaultsAndInvals

/-- R266 and Table 12.4: the commands of the host. That CTXSET is refused while any team of the context is not SAVED, that QCFG checks its template and that its ring lies below 2^39, and that TRREL of an absent or released trace gives status 0 are log 45 (DESIGN CHOICE). -/
def Obligations.HostCommands : Prop := Says.ContextCommands ∧ Says.DeviceCommands ∧ Says.TeamCommands

/-- R83, R247, R269 to R272, R344 to R348: what arrives over links, and what answers it. The layouts of payloads, that a kind 5 packet answers a write, and the order of the reasons for refusing a task packet are logs 47 and 48 (DESIGN CHOICE). -/
def Obligations.Packets : Prop := Says.Forwarding ∧ Says.Requests ∧ Says.Answers

/-- R274, R275, R342, R343 and R348 to R351: link ports, rails and resets. -/
def Obligations.LinksAndPower : Prop := Says.Links ∧ Says.Power

/-- R6, R25, R48 and R58: what a step is: the word at which a path stands, run as its decoded instruction, or one of the actions that may happen. -/
def Obligations.Steps : Prop := Says.StepRunsWord ∧ Says.StepChooses

/-- R145, R299 and R302 to R304: how a trap is taken, and the trap of a word that is no instruction. -/
def Obligations.Traps : Prop := Says.TrapEntries ∧ Says.UndecodableWord

/-- R276 and Tables 12.4 and 12.9: the machine before its island has power; and the model's memory has its canonical form there (assumption 2 names what an unlisted byte reads as). -/
def Obligations.ResetState : Prop := Says.Resets ∧ Says.ResetCanonical
end

