-- ==== Sys2Proof/Laws/Encoding.lean ====
section
/-! SUPPORT. The fields of a packed word are those it was packed from, format by format. -/

namespace Sys2Proof

@[simp] theorem packR_marker (op : BitVec 7) (f : BitVec 4) (d a b : BitVec 7) :
    markerH (packR op f d a b) = op.extractLsb' 3 4 := by
  unfold markerH packR; ext i hi; simp; grind

@[simp] theorem packR_major (op : BitVec 7) (f : BitVec 4) (d a b : BitVec 7) : major (packR op f d a b) = op := by
  unfold major packR; ext i hi; simp; grind

@[simp] theorem packR_fn (op : BitVec 7) (f : BitVec 4) (d a b : BitVec 7) : fnR (packR op f d a b) = f := by
  unfold fnR packR; ext i hi; simp; grind

@[simp] theorem packR_d (op : BitVec 7) (f : BitVec 4) (d a b : BitVec 7) : dR (packR op f d a b) = d := by
  unfold dR packR; ext i hi; simp; grind

@[simp] theorem packR_a (op : BitVec 7) (f : BitVec 4) (d a b : BitVec 7) : aR (packR op f d a b) = a := by
  unfold aR packR; ext i hi; simp; grind

@[simp] theorem packR_b (op : BitVec 7) (f : BitVec 4) (d a b : BitVec 7) : bR (packR op f d a b) = b := by
  unfold bR packR; ext i hi; simp; grind

@[simp] theorem packI_marker (op d a : BitVec 7) (i : BitVec 11) : markerH (packI op d a i) = op.extractLsb' 3 4 := by
  unfold markerH packI; ext k hk; simp; grind

@[simp] theorem packI_major (op d a : BitVec 7) (i : BitVec 11) : major (packI op d a i) = op := by
  unfold major packI; ext k hk; simp; grind

@[simp] theorem packI_d (op d a : BitVec 7) (i : BitVec 11) : dI (packI op d a i) = d := by
  unfold dI packI; ext k hk; simp; grind

@[simp] theorem packI_a (op d a : BitVec 7) (i : BitVec 11) : aI (packI op d a i) = a := by
  unfold aI packI; ext k hk; simp; grind

@[simp] theorem packI_imm (op d a : BitVec 7) (i : BitVec 11) : immI (packI op d a i) = i := by
  unfold immI packI; ext k hk; simp; grind

@[simp] theorem packL_marker (op d : BitVec 7) (i : BitVec 18) : markerH (packL op d i) = op.extractLsb' 3 4 := by
  unfold markerH packL; ext k hk; simp; grind

@[simp] theorem packL_major (op d : BitVec 7) (i : BitVec 18) : major (packL op d i) = op := by
  unfold major packL; ext k hk; simp; grind

@[simp] theorem packL_d (op d : BitVec 7) (i : BitVec 18) : dI (packL op d i) = d := by
  unfold dI packL; ext k hk; simp; grind

@[simp] theorem packL_imm (op d : BitVec 7) (i : BitVec 18) : immL (packL op d i) = i := by
  unfold immL packL; ext k hk; simp; grind

@[simp] theorem packP_marker (op : BitVec 7) (c : BitVec 6) (d a b : BitVec 3) (z : BitVec 10) :
    markerH (packP op c d a b z) = op.extractLsb' 3 4 := by
  unfold markerH packP; ext k hk; simp; grind

@[simp] theorem packP_major (op : BitVec 7) (c : BitVec 6) (d a b : BitVec 3) (z : BitVec 10) :
    major (packP op c d a b z) = op := by
  unfold major packP; ext k hk; simp; grind

@[simp] theorem packP_count (op : BitVec 7) (c : BitVec 6) (d a b : BitVec 3) (z : BitVec 10) :
    countP (packP op c d a b z) = c := by
  unfold countP packP; ext k hk; simp; grind

@[simp] theorem packP_d (op : BitVec 7) (c : BitVec 6) (d a b : BitVec 3) (z : BitVec 10) :
    dStepP (packP op c d a b z) = d := by
  unfold dStepP packP; ext k hk; simp; grind

@[simp] theorem packP_a (op : BitVec 7) (c : BitVec 6) (d a b : BitVec 3) (z : BitVec 10) :
    aStepP (packP op c d a b z) = a := by
  unfold aStepP packP; ext k hk; simp; grind

@[simp] theorem packP_b (op : BitVec 7) (c : BitVec 6) (d a b : BitVec 3) (z : BitVec 10) :
    bStepP (packP op c d a b z) = b := by
  unfold bStepP packP; ext k hk; simp; grind

@[simp] theorem packP_low (op : BitVec 7) (c : BitVec 6) (d a b : BitVec 3) (z : BitVec 10) :
    lowP (packP op c d a b z) = z := by
  unfold lowP packP; ext k hk; simp; grind

@[simp] theorem packH_marker (w : BitVec 12) (a b l : BitVec 4) (y : BitVec 1) (z : BitVec 3) :
    markerH (packH w a b l y z) = 15#4 := by
  unfold markerH packH; ext k hk; simp; grind

@[simp] theorem packH_wait (w : BitVec 12) (a b l : BitVec 4) (y : BitVec 1) (z : BitVec 3) :
    waitH (packH w a b l y z) = w := by
  unfold waitH packH; ext k hk; simp; grind

@[simp] theorem packH_setA (w : BitVec 12) (a b l : BitVec 4) (y : BitVec 1) (z : BitVec 3) :
    setAH (packH w a b l y z) = a := by
  unfold setAH packH; ext k hk; simp; grind

@[simp] theorem packH_setB (w : BitVec 12) (a b l : BitVec 4) (y : BitVec 1) (z : BitVec 3) :
    setBH (packH w a b l y z) = b := by
  unfold setBH packH; ext k hk; simp; grind

@[simp] theorem packH_len (w : BitVec 12) (a b l : BitVec 4) (y : BitVec 1) (z : BitVec 3) :
    lenH (packH w a b l y z) = l := by
  unfold lenH packH; ext k hk; simp; grind

@[simp] theorem packH_yield (w : BitVec 12) (a b l : BitVec 4) (y : BitVec 1) (z : BitVec 3) :
    yieldH (packH w a b l y z) = y := by
  unfold yieldH packH; ext k hk; simp; grind

@[simp] theorem packH_low (w : BitVec 12) (a b l : BitVec 4) (y : BitVec 1) (z : BitVec 3) :
    lowH (packH w a b l y z) = z := by
  unfold lowH packH; ext k hk; simp; grind

/-! ## Sub-fields -/

theorem extract_low {m n : Nat} (x : BitVec m) (y : BitVec n) (s k : Nat) (h : s + k ≤ n) :
    (x ++ y).extractLsb' s k = y.extractLsb' s k := by
  ext i hi; simp [BitVec.getElem_extractLsb', BitVec.getLsbD_append, show s + i < n by omega]

theorem extract_high {m n : Nat} (x : BitVec m) (y : BitVec n) (s k : Nat) (h : n ≤ s) :
    (x ++ y).extractLsb' s k = x.extractLsb' (s - n) k := by
  ext i hi
  simp [BitVec.getElem_extractLsb', BitVec.getLsbD_append, show ¬ s + i < n by omega, show s + i - n = s - n + i by omega]

theorem extract_all {n : Nat} (y : BitVec n) : y.extractLsb' 0 n = y := by
  ext i hi; simp

/-! ### The shapes the encoder packs -/

@[simp] theorem sub_1_1_1_1_a (a : BitVec 1) (b : BitVec 1) (c : BitVec 1) (d : BitVec 1) : (a ++ b ++ c ++ d : BitVec 4).extractLsb' 3 1 = a := by
  ext i hi; simp; grind

@[simp] theorem sub_1_1_1_1_b (a : BitVec 1) (b : BitVec 1) (c : BitVec 1) (d : BitVec 1) : (a ++ b ++ c ++ d : BitVec 4).extractLsb' 2 1 = b := by
  ext i hi; simp; grind

@[simp] theorem sub_1_1_1_1_c (a : BitVec 1) (b : BitVec 1) (c : BitVec 1) (d : BitVec 1) : (a ++ b ++ c ++ d : BitVec 4).extractLsb' 1 1 = c := by
  ext i hi; simp; grind

@[simp] theorem sub_1_1_1_1_d (a : BitVec 1) (b : BitVec 1) (c : BitVec 1) (d : BitVec 1) : (a ++ b ++ c ++ d : BitVec 4).extractLsb' 0 1 = d := by
  ext i hi; simp; grind

@[simp] theorem sub_1_1_2_a (a : BitVec 1) (b : BitVec 1) (c : BitVec 2) : (a ++ b ++ c : BitVec 4).extractLsb' 3 1 = a :=
  (extract_high (a ++ b) c 3 1 (by decide)).trans ((extract_high a b 1 1 (by decide)).trans (extract_all a))

@[simp] theorem sub_1_1_2_b (a : BitVec 1) (b : BitVec 1) (c : BitVec 2) : (a ++ b ++ c : BitVec 4).extractLsb' 2 1 = b :=
  (extract_high (a ++ b) c 2 1 (by decide)).trans ((extract_low a b 0 1 (by decide)).trans (extract_all b))

@[simp] theorem sub_1_1_2_c (a : BitVec 1) (b : BitVec 1) (c : BitVec 2) : (a ++ b ++ c : BitVec 4).extractLsb' 0 2 = c :=
  (extract_low (a ++ b) c 0 2 (by decide)).trans (extract_all c)

@[simp] theorem sub_1_2_1_a (a : BitVec 1) (b : BitVec 2) (c : BitVec 1) : (a ++ b ++ c : BitVec 4).extractLsb' 3 1 = a :=
  (extract_high (a ++ b) c 3 1 (by decide)).trans ((extract_high a b 2 1 (by decide)).trans (extract_all a))

@[simp] theorem sub_1_2_1_b (a : BitVec 1) (b : BitVec 2) (c : BitVec 1) : (a ++ b ++ c : BitVec 4).extractLsb' 1 2 = b :=
  (extract_high (a ++ b) c 1 2 (by decide)).trans ((extract_low a b 0 2 (by decide)).trans (extract_all b))

@[simp] theorem sub_1_2_1_c (a : BitVec 1) (b : BitVec 2) (c : BitVec 1) : (a ++ b ++ c : BitVec 4).extractLsb' 0 1 = c :=
  (extract_low (a ++ b) c 0 1 (by decide)).trans (extract_all c)

@[simp] theorem sub_1_3_a (a : BitVec 1) (b : BitVec 3) : (a ++ b : BitVec 4).extractLsb' 3 1 = a :=
  (extract_high a b 3 1 (by decide)).trans (extract_all a)

@[simp] theorem sub_1_3_b (a : BitVec 1) (b : BitVec 3) : (a ++ b : BitVec 4).extractLsb' 0 3 = b :=
  (extract_low a b 0 3 (by decide)).trans (extract_all b)

@[simp] theorem sub_1_10_a (a : BitVec 1) (b : BitVec 10) : (a ++ b : BitVec 11).extractLsb' 10 1 = a :=
  (extract_high a b 10 1 (by decide)).trans (extract_all a)

@[simp] theorem sub_1_10_b (a : BitVec 1) (b : BitVec 10) : (a ++ b : BitVec 11).extractLsb' 0 10 = b :=
  (extract_low a b 0 10 (by decide)).trans (extract_all b)

@[simp] theorem sub_2_2_a (a : BitVec 2) (b : BitVec 2) : (a ++ b : BitVec 4).extractLsb' 2 2 = a :=
  (extract_high a b 2 2 (by decide)).trans (extract_all a)

@[simp] theorem sub_2_2_b (a : BitVec 2) (b : BitVec 2) : (a ++ b : BitVec 4).extractLsb' 0 2 = b :=
  (extract_low a b 0 2 (by decide)).trans (extract_all b)

@[simp] theorem sub_2_2_3_a (a : BitVec 2) (b : BitVec 2) (c : BitVec 3) : (a ++ b ++ c : BitVec 7).extractLsb' 5 2 = a :=
  (extract_high (a ++ b) c 5 2 (by decide)).trans ((extract_high a b 2 2 (by decide)).trans (extract_all a))

@[simp] theorem sub_2_2_3_b (a : BitVec 2) (b : BitVec 2) (c : BitVec 3) : (a ++ b ++ c : BitVec 7).extractLsb' 3 2 = b :=
  (extract_high (a ++ b) c 3 2 (by decide)).trans ((extract_low a b 0 2 (by decide)).trans (extract_all b))

@[simp] theorem sub_2_2_3_c (a : BitVec 2) (b : BitVec 2) (c : BitVec 3) : (a ++ b ++ c : BitVec 7).extractLsb' 0 3 = c :=
  (extract_low (a ++ b) c 0 3 (by decide)).trans (extract_all c)

@[simp] theorem sub_3_1_a (a : BitVec 3) (b : BitVec 1) : (a ++ b : BitVec 4).extractLsb' 1 3 = a :=
  (extract_high a b 1 3 (by decide)).trans (extract_all a)

@[simp] theorem sub_3_1_b (a : BitVec 3) (b : BitVec 1) : (a ++ b : BitVec 4).extractLsb' 0 1 = b :=
  (extract_low a b 0 1 (by decide)).trans (extract_all b)

@[simp] theorem sub_3_1_3_a (a : BitVec 3) (b : BitVec 1) (c : BitVec 3) : (a ++ b ++ c : BitVec 7).extractLsb' 4 3 = a :=
  (extract_high (a ++ b) c 4 3 (by decide)).trans ((extract_high a b 1 3 (by decide)).trans (extract_all a))

@[simp] theorem sub_3_1_3_b (a : BitVec 3) (b : BitVec 1) (c : BitVec 3) : (a ++ b ++ c : BitVec 7).extractLsb' 3 1 = b :=
  (extract_high (a ++ b) c 3 1 (by decide)).trans ((extract_low a b 0 1 (by decide)).trans (extract_all b))

@[simp] theorem sub_3_1_3_c (a : BitVec 3) (b : BitVec 1) (c : BitVec 3) : (a ++ b ++ c : BitVec 7).extractLsb' 0 3 = c :=
  (extract_low (a ++ b) c 0 3 (by decide)).trans (extract_all c)

@[simp] theorem sub_4_3_a (a : BitVec 4) (b : BitVec 3) : (a ++ b : BitVec 7).extractLsb' 3 4 = a :=
  (extract_high a b 3 4 (by decide)).trans (extract_all a)

@[simp] theorem sub_4_3_b (a : BitVec 4) (b : BitVec 3) : (a ++ b : BitVec 7).extractLsb' 0 3 = b :=
  (extract_low a b 0 3 (by decide)).trans (extract_all b)

@[simp] theorem sub_5_2_a (a : BitVec 5) (b : BitVec 2) : (a ++ b : BitVec 7).extractLsb' 2 5 = a :=
  (extract_high a b 2 5 (by decide)).trans (extract_all a)

@[simp] theorem sub_5_2_b (a : BitVec 5) (b : BitVec 2) : (a ++ b : BitVec 7).extractLsb' 0 2 = b :=
  (extract_low a b 0 2 (by decide)).trans (extract_all b)

@[simp] theorem sub_5_6_a (a : BitVec 5) (b : BitVec 6) : (a ++ b : BitVec 11).extractLsb' 6 5 = a :=
  (extract_high a b 6 5 (by decide)).trans (extract_all a)

@[simp] theorem sub_5_6_b (a : BitVec 5) (b : BitVec 6) : (a ++ b : BitVec 11).extractLsb' 0 6 = b :=
  (extract_low a b 0 6 (by decide)).trans (extract_all b)

@[simp] theorem sub_6_1_a (a : BitVec 6) (b : BitVec 1) : (a ++ b : BitVec 7).extractLsb' 1 6 = a :=
  (extract_high a b 1 6 (by decide)).trans (extract_all a)

@[simp] theorem sub_6_1_b (a : BitVec 6) (b : BitVec 1) : (a ++ b : BitVec 7).extractLsb' 0 1 = b :=
  (extract_low a b 0 1 (by decide)).trans (extract_all b)

@[simp] theorem sub_8_10_a (a : BitVec 8) (b : BitVec 10) : (a ++ b : BitVec 18).extractLsb' 10 8 = a :=
  (extract_high a b 10 8 (by decide)).trans (extract_all a)

@[simp] theorem sub_8_10_b (a : BitVec 8) (b : BitVec 10) : (a ++ b : BitVec 18).extractLsb' 0 10 = b :=
  (extract_low a b 0 10 (by decide)).trans (extract_all b)

/-! ## The decoder of a packed word -/

theorem decode_packR (op : BitVec 7) (f : BitVec 4) (d a b : BitVec 7) (h : op.extractLsb' 3 4 ≠ 15#4) :
    decode (packR op f d a b) = decodeMajor op.toNat (packR op f d a b) := by
  rw [decode, packR_marker, if_neg h, packR_major]

theorem decode_packI (op d a : BitVec 7) (i : BitVec 11) (h : op.extractLsb' 3 4 ≠ 15#4) :
    decode (packI op d a i) = decodeMajor op.toNat (packI op d a i) := by
  rw [decode, packI_marker, if_neg h, packI_major]

theorem decode_packL (op d : BitVec 7) (i : BitVec 18) (h : op.extractLsb' 3 4 ≠ 15#4) :
    decode (packL op d i) = decodeMajor op.toNat (packL op d i) := by
  rw [decode, packL_marker, if_neg h, packL_major]

theorem decode_packP (op : BitVec 7) (c : BitVec 6) (d a b : BitVec 3) (z : BitVec 10) (h : op.extractLsb' 3 4 ≠ 15#4) :
    decode (packP op c d a b z) = decodeMajor op.toNat (packP op c d a b z) := by
  rw [decode, packP_marker, if_neg h, packP_major]

theorem decode_packH (w : BitVec 12) (a b l : BitVec 4) (y : BitVec 1) (z : BitVec 3) :
    decode (packH w a b l y z) = decodeHeader (packH w a b l y z) := by
  rw [decode, packH_marker, if_pos rfl]

end Sys2Proof
end

