-- ==== Sys2Proof/Laws/State.lean ====
section
/-! SUPPORT. The fields of the state after each of its updates: one lemma per field that an update leaves alone. -/

namespace Sys2Proof.Machine

variable (s : State)

@[simp] theorem State.modTeam_mem (u : Nat) (f : Team → Team) : (s.modTeam u f).mem = s.mem := rfl
@[simp] theorem State.modTeam_l2 (u : Nat) (f : Team → Team) : (s.modTeam u f).l2 = s.l2 := rfl
@[simp] theorem State.modTeam_syncLines (u : Nat) (f : Team → Team) : (s.modTeam u f).syncLines = s.syncLines := rfl
@[simp] theorem State.modTeam_cores (u : Nat) (f : Team → Team) : (s.modTeam u f).cores = s.cores := rfl
@[simp] theorem State.modTeam_ops (u : Nat) (f : Team → Team) : (s.modTeam u f).ops = s.ops := rfl
@[simp] theorem State.modTeam_launches (u : Nat) (f : Team → Team) : (s.modTeam u f).launches = s.launches := rfl
@[simp] theorem State.modTeam_tasks (u : Nat) (f : Team → Team) : (s.modTeam u f).tasks = s.tasks := rfl
@[simp] theorem State.modTeam_traces (u : Nat) (f : Team → Team) : (s.modTeam u f).traces = s.traces := rfl
@[simp] theorem State.modTeam_props (u : Nat) (f : Team → Team) : (s.modTeam u f).props = s.props := rfl
@[simp] theorem State.modTeam_claims (u : Nat) (f : Team → Team) : (s.modTeam u f).claims = s.claims := rfl
@[simp] theorem State.modTeam_backingBase (u : Nat) (f : Team → Team) : (s.modTeam u f).backingBase = s.backingBase := rfl
@[simp] theorem State.modTeam_backingEntries (u : Nat) (f : Team → Team) : (s.modTeam u f).backingEntries = s.backingEntries := rfl
@[simp] theorem State.modTeam_contexts (u : Nat) (f : Team → Team) : (s.modTeam u f).contexts = s.contexts := rfl
@[simp] theorem State.modTeam_queues (u : Nat) (f : Team → Team) : (s.modTeam u f).queues = s.queues := rfl
@[simp] theorem State.modTeam_rrLast (u : Nat) (f : Team → Team) : (s.modTeam u f).rrLast = s.rrLast := rfl
@[simp] theorem State.modTeam_launchedOnce (u : Nat) (f : Team → Team) : (s.modTeam u f).launchedOnce = s.launchedOnce := rfl
@[simp] theorem State.modTeam_hostCommands (u : Nat) (f : Team → Team) : (s.modTeam u f).hostCommands = s.hostCommands := rfl
@[simp] theorem State.modTeam_cmdDone (u : Nat) (f : Team → Team) : (s.modTeam u f).cmdDone = s.cmdDone := rfl
@[simp] theorem State.modTeam_cmdStat (u : Nat) (f : Team → Team) : (s.modTeam u f).cmdStat = s.cmdStat := rfl
@[simp] theorem State.modTeam_mc (u : Nat) (f : Team → Team) : (s.modTeam u f).mc = s.mc := rfl
@[simp] theorem State.modTeam_fq (u : Nat) (f : Team → Team) : (s.modTeam u f).fq = s.fq := rfl
@[simp] theorem State.modTeam_edCtx (u : Nat) (f : Team → Team) : (s.modTeam u f).edCtx = s.edCtx := rfl
@[simp] theorem State.modTeam_edCount (u : Nat) (f : Team → Team) : (s.modTeam u f).edCount = s.edCount := rfl
@[simp] theorem State.modTeam_msix (u : Nat) (f : Team → Team) : (s.modTeam u f).msix = s.msix := rfl
@[simp] theorem State.modTeam_hostReads (u : Nat) (f : Team → Team) : (s.modTeam u f).hostReads = s.hostReads := rfl
@[simp] theorem State.modTeam_apertures (u : Nat) (f : Team → Team) : (s.modTeam u f).apertures = s.apertures := rfl
@[simp] theorem State.modTeam_remotes (u : Nat) (f : Team → Team) : (s.modTeam u f).remotes = s.remotes := rfl
@[simp] theorem State.modTeam_unitFetched (u : Nat) (f : Team → Team) : (s.modTeam u f).unitFetched = s.unitFetched := rfl
@[simp] theorem State.modTeam_unitFailed (u : Nat) (f : Team → Team) : (s.modTeam u f).unitFailed = s.unitFailed := rfl
@[simp] theorem State.modTeam_unitWrites (u : Nat) (f : Team → Team) : (s.modTeam u f).unitWrites = s.unitWrites := rfl
@[simp] theorem State.modTeam_outPackets (u : Nat) (f : Team → Team) : (s.modTeam u f).outPackets = s.outPackets := rfl
@[simp] theorem State.modTeam_walks (u : Nat) (f : Team → Team) : (s.modTeam u f).walks = s.walks := rfl
@[simp] theorem State.modTeam_invals (u : Nat) (f : Team → Team) : (s.modTeam u f).invals = s.invals := rfl
@[simp] theorem State.modTeam_faults (u : Nat) (f : Team → Team) : (s.modTeam u f).faults = s.faults := rfl
@[simp] theorem State.modTeam_audits (u : Nat) (f : Team → Team) : (s.modTeam u f).audits = s.audits := rfl
@[simp] theorem State.modTeam_arrayErrors (u : Nat) (f : Team → Team) : (s.modTeam u f).arrayErrors = s.arrayErrors := rfl
@[simp] theorem State.modTeam_island (u : Nat) (f : Team → Team) : (s.modTeam u f).island = s.island := rfl
@[simp] theorem State.modTeam_inbox (u : Nat) (f : Team → Team) : (s.modTeam u f).inbox = s.inbox := rfl
@[simp] theorem State.modTeam_agenda (u : Nat) (f : Team → Team) : (s.modTeam u f).agenda = s.agenda := rfl
@[simp] theorem State.modTeam_cur (u : Nat) (f : Team → Team) : (s.modTeam u f).cur = s.cur := rfl
@[simp] theorem State.modTeam_tick (u : Nat) (f : Team → Team) : (s.modTeam u f).tick = s.tick := rfl
@[simp] theorem State.modTeam_nextUid (u : Nat) (f : Team → Team) : (s.modTeam u f).nextUid = s.nextUid := rfl

@[simp] theorem State.modGang_mem (u g : Nat) (f : Gang → Gang) : (s.modGang u g f).mem = s.mem := rfl
@[simp] theorem State.modGang_l2 (u g : Nat) (f : Gang → Gang) : (s.modGang u g f).l2 = s.l2 := rfl
@[simp] theorem State.modGang_syncLines (u g : Nat) (f : Gang → Gang) : (s.modGang u g f).syncLines = s.syncLines := rfl
@[simp] theorem State.modGang_cores (u g : Nat) (f : Gang → Gang) : (s.modGang u g f).cores = s.cores := rfl
@[simp] theorem State.modGang_ops (u g : Nat) (f : Gang → Gang) : (s.modGang u g f).ops = s.ops := rfl
@[simp] theorem State.modGang_launches (u g : Nat) (f : Gang → Gang) : (s.modGang u g f).launches = s.launches := rfl
@[simp] theorem State.modGang_tasks (u g : Nat) (f : Gang → Gang) : (s.modGang u g f).tasks = s.tasks := rfl
@[simp] theorem State.modGang_traces (u g : Nat) (f : Gang → Gang) : (s.modGang u g f).traces = s.traces := rfl
@[simp] theorem State.modGang_props (u g : Nat) (f : Gang → Gang) : (s.modGang u g f).props = s.props := rfl
@[simp] theorem State.modGang_claims (u g : Nat) (f : Gang → Gang) : (s.modGang u g f).claims = s.claims := rfl
@[simp] theorem State.modGang_backingBase (u g : Nat) (f : Gang → Gang) : (s.modGang u g f).backingBase = s.backingBase := rfl
@[simp] theorem State.modGang_backingEntries (u g : Nat) (f : Gang → Gang) : (s.modGang u g f).backingEntries = s.backingEntries := rfl
@[simp] theorem State.modGang_contexts (u g : Nat) (f : Gang → Gang) : (s.modGang u g f).contexts = s.contexts := rfl
@[simp] theorem State.modGang_queues (u g : Nat) (f : Gang → Gang) : (s.modGang u g f).queues = s.queues := rfl
@[simp] theorem State.modGang_rrLast (u g : Nat) (f : Gang → Gang) : (s.modGang u g f).rrLast = s.rrLast := rfl
@[simp] theorem State.modGang_launchedOnce (u g : Nat) (f : Gang → Gang) : (s.modGang u g f).launchedOnce = s.launchedOnce := rfl
@[simp] theorem State.modGang_hostCommands (u g : Nat) (f : Gang → Gang) : (s.modGang u g f).hostCommands = s.hostCommands := rfl
@[simp] theorem State.modGang_cmdDone (u g : Nat) (f : Gang → Gang) : (s.modGang u g f).cmdDone = s.cmdDone := rfl
@[simp] theorem State.modGang_cmdStat (u g : Nat) (f : Gang → Gang) : (s.modGang u g f).cmdStat = s.cmdStat := rfl
@[simp] theorem State.modGang_mc (u g : Nat) (f : Gang → Gang) : (s.modGang u g f).mc = s.mc := rfl
@[simp] theorem State.modGang_fq (u g : Nat) (f : Gang → Gang) : (s.modGang u g f).fq = s.fq := rfl
@[simp] theorem State.modGang_edCtx (u g : Nat) (f : Gang → Gang) : (s.modGang u g f).edCtx = s.edCtx := rfl
@[simp] theorem State.modGang_edCount (u g : Nat) (f : Gang → Gang) : (s.modGang u g f).edCount = s.edCount := rfl
@[simp] theorem State.modGang_msix (u g : Nat) (f : Gang → Gang) : (s.modGang u g f).msix = s.msix := rfl
@[simp] theorem State.modGang_hostReads (u g : Nat) (f : Gang → Gang) : (s.modGang u g f).hostReads = s.hostReads := rfl
@[simp] theorem State.modGang_apertures (u g : Nat) (f : Gang → Gang) : (s.modGang u g f).apertures = s.apertures := rfl
@[simp] theorem State.modGang_remotes (u g : Nat) (f : Gang → Gang) : (s.modGang u g f).remotes = s.remotes := rfl
@[simp] theorem State.modGang_unitFetched (u g : Nat) (f : Gang → Gang) : (s.modGang u g f).unitFetched = s.unitFetched := rfl
@[simp] theorem State.modGang_unitFailed (u g : Nat) (f : Gang → Gang) : (s.modGang u g f).unitFailed = s.unitFailed := rfl
@[simp] theorem State.modGang_unitWrites (u g : Nat) (f : Gang → Gang) : (s.modGang u g f).unitWrites = s.unitWrites := rfl
@[simp] theorem State.modGang_outPackets (u g : Nat) (f : Gang → Gang) : (s.modGang u g f).outPackets = s.outPackets := rfl
@[simp] theorem State.modGang_walks (u g : Nat) (f : Gang → Gang) : (s.modGang u g f).walks = s.walks := rfl
@[simp] theorem State.modGang_invals (u g : Nat) (f : Gang → Gang) : (s.modGang u g f).invals = s.invals := rfl
@[simp] theorem State.modGang_faults (u g : Nat) (f : Gang → Gang) : (s.modGang u g f).faults = s.faults := rfl
@[simp] theorem State.modGang_audits (u g : Nat) (f : Gang → Gang) : (s.modGang u g f).audits = s.audits := rfl
@[simp] theorem State.modGang_arrayErrors (u g : Nat) (f : Gang → Gang) : (s.modGang u g f).arrayErrors = s.arrayErrors := rfl
@[simp] theorem State.modGang_island (u g : Nat) (f : Gang → Gang) : (s.modGang u g f).island = s.island := rfl
@[simp] theorem State.modGang_inbox (u g : Nat) (f : Gang → Gang) : (s.modGang u g f).inbox = s.inbox := rfl
@[simp] theorem State.modGang_agenda (u g : Nat) (f : Gang → Gang) : (s.modGang u g f).agenda = s.agenda := rfl
@[simp] theorem State.modGang_cur (u g : Nat) (f : Gang → Gang) : (s.modGang u g f).cur = s.cur := rfl
@[simp] theorem State.modGang_tick (u g : Nat) (f : Gang → Gang) : (s.modGang u g f).tick = s.tick := rfl
@[simp] theorem State.modGang_nextUid (u g : Nat) (f : Gang → Gang) : (s.modGang u g f).nextUid = s.nextUid := rfl

@[simp] theorem State.modThread_mem (u g l : Nat) (f : Thread → Thread) : (s.modThread u g l f).mem = s.mem := rfl
@[simp] theorem State.modThread_l2 (u g l : Nat) (f : Thread → Thread) : (s.modThread u g l f).l2 = s.l2 := rfl
@[simp] theorem State.modThread_syncLines (u g l : Nat) (f : Thread → Thread) : (s.modThread u g l f).syncLines = s.syncLines := rfl
@[simp] theorem State.modThread_cores (u g l : Nat) (f : Thread → Thread) : (s.modThread u g l f).cores = s.cores := rfl
@[simp] theorem State.modThread_ops (u g l : Nat) (f : Thread → Thread) : (s.modThread u g l f).ops = s.ops := rfl
@[simp] theorem State.modThread_launches (u g l : Nat) (f : Thread → Thread) : (s.modThread u g l f).launches = s.launches := rfl
@[simp] theorem State.modThread_tasks (u g l : Nat) (f : Thread → Thread) : (s.modThread u g l f).tasks = s.tasks := rfl
@[simp] theorem State.modThread_traces (u g l : Nat) (f : Thread → Thread) : (s.modThread u g l f).traces = s.traces := rfl
@[simp] theorem State.modThread_props (u g l : Nat) (f : Thread → Thread) : (s.modThread u g l f).props = s.props := rfl
@[simp] theorem State.modThread_claims (u g l : Nat) (f : Thread → Thread) : (s.modThread u g l f).claims = s.claims := rfl
@[simp] theorem State.modThread_backingBase (u g l : Nat) (f : Thread → Thread) : (s.modThread u g l f).backingBase = s.backingBase := rfl
@[simp] theorem State.modThread_backingEntries (u g l : Nat) (f : Thread → Thread) : (s.modThread u g l f).backingEntries = s.backingEntries := rfl
@[simp] theorem State.modThread_contexts (u g l : Nat) (f : Thread → Thread) : (s.modThread u g l f).contexts = s.contexts := rfl
@[simp] theorem State.modThread_queues (u g l : Nat) (f : Thread → Thread) : (s.modThread u g l f).queues = s.queues := rfl
@[simp] theorem State.modThread_rrLast (u g l : Nat) (f : Thread → Thread) : (s.modThread u g l f).rrLast = s.rrLast := rfl
@[simp] theorem State.modThread_launchedOnce (u g l : Nat) (f : Thread → Thread) : (s.modThread u g l f).launchedOnce = s.launchedOnce := rfl
@[simp] theorem State.modThread_hostCommands (u g l : Nat) (f : Thread → Thread) : (s.modThread u g l f).hostCommands = s.hostCommands := rfl
@[simp] theorem State.modThread_cmdDone (u g l : Nat) (f : Thread → Thread) : (s.modThread u g l f).cmdDone = s.cmdDone := rfl
@[simp] theorem State.modThread_cmdStat (u g l : Nat) (f : Thread → Thread) : (s.modThread u g l f).cmdStat = s.cmdStat := rfl
@[simp] theorem State.modThread_mc (u g l : Nat) (f : Thread → Thread) : (s.modThread u g l f).mc = s.mc := rfl
@[simp] theorem State.modThread_fq (u g l : Nat) (f : Thread → Thread) : (s.modThread u g l f).fq = s.fq := rfl
@[simp] theorem State.modThread_edCtx (u g l : Nat) (f : Thread → Thread) : (s.modThread u g l f).edCtx = s.edCtx := rfl
@[simp] theorem State.modThread_edCount (u g l : Nat) (f : Thread → Thread) : (s.modThread u g l f).edCount = s.edCount := rfl
@[simp] theorem State.modThread_msix (u g l : Nat) (f : Thread → Thread) : (s.modThread u g l f).msix = s.msix := rfl
@[simp] theorem State.modThread_hostReads (u g l : Nat) (f : Thread → Thread) : (s.modThread u g l f).hostReads = s.hostReads := rfl
@[simp] theorem State.modThread_apertures (u g l : Nat) (f : Thread → Thread) : (s.modThread u g l f).apertures = s.apertures := rfl
@[simp] theorem State.modThread_remotes (u g l : Nat) (f : Thread → Thread) : (s.modThread u g l f).remotes = s.remotes := rfl
@[simp] theorem State.modThread_unitFetched (u g l : Nat) (f : Thread → Thread) : (s.modThread u g l f).unitFetched = s.unitFetched := rfl
@[simp] theorem State.modThread_unitFailed (u g l : Nat) (f : Thread → Thread) : (s.modThread u g l f).unitFailed = s.unitFailed := rfl
@[simp] theorem State.modThread_unitWrites (u g l : Nat) (f : Thread → Thread) : (s.modThread u g l f).unitWrites = s.unitWrites := rfl
@[simp] theorem State.modThread_outPackets (u g l : Nat) (f : Thread → Thread) : (s.modThread u g l f).outPackets = s.outPackets := rfl
@[simp] theorem State.modThread_walks (u g l : Nat) (f : Thread → Thread) : (s.modThread u g l f).walks = s.walks := rfl
@[simp] theorem State.modThread_invals (u g l : Nat) (f : Thread → Thread) : (s.modThread u g l f).invals = s.invals := rfl
@[simp] theorem State.modThread_faults (u g l : Nat) (f : Thread → Thread) : (s.modThread u g l f).faults = s.faults := rfl
@[simp] theorem State.modThread_audits (u g l : Nat) (f : Thread → Thread) : (s.modThread u g l f).audits = s.audits := rfl
@[simp] theorem State.modThread_arrayErrors (u g l : Nat) (f : Thread → Thread) : (s.modThread u g l f).arrayErrors = s.arrayErrors := rfl
@[simp] theorem State.modThread_island (u g l : Nat) (f : Thread → Thread) : (s.modThread u g l f).island = s.island := rfl
@[simp] theorem State.modThread_inbox (u g l : Nat) (f : Thread → Thread) : (s.modThread u g l f).inbox = s.inbox := rfl
@[simp] theorem State.modThread_agenda (u g l : Nat) (f : Thread → Thread) : (s.modThread u g l f).agenda = s.agenda := rfl
@[simp] theorem State.modThread_cur (u g l : Nat) (f : Thread → Thread) : (s.modThread u g l f).cur = s.cur := rfl
@[simp] theorem State.modThread_tick (u g l : Nat) (f : Thread → Thread) : (s.modThread u g l f).tick = s.tick := rfl
@[simp] theorem State.modThread_nextUid (u g l : Nat) (f : Thread → Thread) : (s.modThread u g l f).nextUid = s.nextUid := rfl

@[simp] theorem State.modPath_mem (c : Cursor) (f : Path → Path) : (s.modPath c f).mem = s.mem := rfl
@[simp] theorem State.modPath_l2 (c : Cursor) (f : Path → Path) : (s.modPath c f).l2 = s.l2 := rfl
@[simp] theorem State.modPath_syncLines (c : Cursor) (f : Path → Path) : (s.modPath c f).syncLines = s.syncLines := rfl
@[simp] theorem State.modPath_cores (c : Cursor) (f : Path → Path) : (s.modPath c f).cores = s.cores := rfl
@[simp] theorem State.modPath_ops (c : Cursor) (f : Path → Path) : (s.modPath c f).ops = s.ops := rfl
@[simp] theorem State.modPath_launches (c : Cursor) (f : Path → Path) : (s.modPath c f).launches = s.launches := rfl
@[simp] theorem State.modPath_tasks (c : Cursor) (f : Path → Path) : (s.modPath c f).tasks = s.tasks := rfl
@[simp] theorem State.modPath_traces (c : Cursor) (f : Path → Path) : (s.modPath c f).traces = s.traces := rfl
@[simp] theorem State.modPath_props (c : Cursor) (f : Path → Path) : (s.modPath c f).props = s.props := rfl
@[simp] theorem State.modPath_claims (c : Cursor) (f : Path → Path) : (s.modPath c f).claims = s.claims := rfl
@[simp] theorem State.modPath_backingBase (c : Cursor) (f : Path → Path) : (s.modPath c f).backingBase = s.backingBase := rfl
@[simp] theorem State.modPath_backingEntries (c : Cursor) (f : Path → Path) : (s.modPath c f).backingEntries = s.backingEntries := rfl
@[simp] theorem State.modPath_contexts (c : Cursor) (f : Path → Path) : (s.modPath c f).contexts = s.contexts := rfl
@[simp] theorem State.modPath_queues (c : Cursor) (f : Path → Path) : (s.modPath c f).queues = s.queues := rfl
@[simp] theorem State.modPath_rrLast (c : Cursor) (f : Path → Path) : (s.modPath c f).rrLast = s.rrLast := rfl
@[simp] theorem State.modPath_launchedOnce (c : Cursor) (f : Path → Path) : (s.modPath c f).launchedOnce = s.launchedOnce := rfl
@[simp] theorem State.modPath_hostCommands (c : Cursor) (f : Path → Path) : (s.modPath c f).hostCommands = s.hostCommands := rfl
@[simp] theorem State.modPath_cmdDone (c : Cursor) (f : Path → Path) : (s.modPath c f).cmdDone = s.cmdDone := rfl
@[simp] theorem State.modPath_cmdStat (c : Cursor) (f : Path → Path) : (s.modPath c f).cmdStat = s.cmdStat := rfl
@[simp] theorem State.modPath_mc (c : Cursor) (f : Path → Path) : (s.modPath c f).mc = s.mc := rfl
@[simp] theorem State.modPath_fq (c : Cursor) (f : Path → Path) : (s.modPath c f).fq = s.fq := rfl
@[simp] theorem State.modPath_edCtx (c : Cursor) (f : Path → Path) : (s.modPath c f).edCtx = s.edCtx := rfl
@[simp] theorem State.modPath_edCount (c : Cursor) (f : Path → Path) : (s.modPath c f).edCount = s.edCount := rfl
@[simp] theorem State.modPath_msix (c : Cursor) (f : Path → Path) : (s.modPath c f).msix = s.msix := rfl
@[simp] theorem State.modPath_hostReads (c : Cursor) (f : Path → Path) : (s.modPath c f).hostReads = s.hostReads := rfl
@[simp] theorem State.modPath_apertures (c : Cursor) (f : Path → Path) : (s.modPath c f).apertures = s.apertures := rfl
@[simp] theorem State.modPath_remotes (c : Cursor) (f : Path → Path) : (s.modPath c f).remotes = s.remotes := rfl
@[simp] theorem State.modPath_unitFetched (c : Cursor) (f : Path → Path) : (s.modPath c f).unitFetched = s.unitFetched := rfl
@[simp] theorem State.modPath_unitFailed (c : Cursor) (f : Path → Path) : (s.modPath c f).unitFailed = s.unitFailed := rfl
@[simp] theorem State.modPath_unitWrites (c : Cursor) (f : Path → Path) : (s.modPath c f).unitWrites = s.unitWrites := rfl
@[simp] theorem State.modPath_outPackets (c : Cursor) (f : Path → Path) : (s.modPath c f).outPackets = s.outPackets := rfl
@[simp] theorem State.modPath_walks (c : Cursor) (f : Path → Path) : (s.modPath c f).walks = s.walks := rfl
@[simp] theorem State.modPath_invals (c : Cursor) (f : Path → Path) : (s.modPath c f).invals = s.invals := rfl
@[simp] theorem State.modPath_faults (c : Cursor) (f : Path → Path) : (s.modPath c f).faults = s.faults := rfl
@[simp] theorem State.modPath_audits (c : Cursor) (f : Path → Path) : (s.modPath c f).audits = s.audits := rfl
@[simp] theorem State.modPath_arrayErrors (c : Cursor) (f : Path → Path) : (s.modPath c f).arrayErrors = s.arrayErrors := rfl
@[simp] theorem State.modPath_island (c : Cursor) (f : Path → Path) : (s.modPath c f).island = s.island := rfl
@[simp] theorem State.modPath_inbox (c : Cursor) (f : Path → Path) : (s.modPath c f).inbox = s.inbox := rfl
@[simp] theorem State.modPath_agenda (c : Cursor) (f : Path → Path) : (s.modPath c f).agenda = s.agenda := rfl
@[simp] theorem State.modPath_cur (c : Cursor) (f : Path → Path) : (s.modPath c f).cur = s.cur := rfl
@[simp] theorem State.modPath_tick (c : Cursor) (f : Path → Path) : (s.modPath c f).tick = s.tick := rfl
@[simp] theorem State.modPath_nextUid (c : Cursor) (f : Path → Path) : (s.modPath c f).nextUid = s.nextUid := rfl

@[simp] theorem State.modOp_mem (u : Nat) (f : Op → Op) : (s.modOp u f).mem = s.mem := rfl
@[simp] theorem State.modOp_l2 (u : Nat) (f : Op → Op) : (s.modOp u f).l2 = s.l2 := rfl
@[simp] theorem State.modOp_syncLines (u : Nat) (f : Op → Op) : (s.modOp u f).syncLines = s.syncLines := rfl
@[simp] theorem State.modOp_cores (u : Nat) (f : Op → Op) : (s.modOp u f).cores = s.cores := rfl
@[simp] theorem State.modOp_teams (u : Nat) (f : Op → Op) : (s.modOp u f).teams = s.teams := rfl
@[simp] theorem State.modOp_launches (u : Nat) (f : Op → Op) : (s.modOp u f).launches = s.launches := rfl
@[simp] theorem State.modOp_tasks (u : Nat) (f : Op → Op) : (s.modOp u f).tasks = s.tasks := rfl
@[simp] theorem State.modOp_traces (u : Nat) (f : Op → Op) : (s.modOp u f).traces = s.traces := rfl
@[simp] theorem State.modOp_props (u : Nat) (f : Op → Op) : (s.modOp u f).props = s.props := rfl
@[simp] theorem State.modOp_claims (u : Nat) (f : Op → Op) : (s.modOp u f).claims = s.claims := rfl
@[simp] theorem State.modOp_backingBase (u : Nat) (f : Op → Op) : (s.modOp u f).backingBase = s.backingBase := rfl
@[simp] theorem State.modOp_backingEntries (u : Nat) (f : Op → Op) : (s.modOp u f).backingEntries = s.backingEntries := rfl
@[simp] theorem State.modOp_contexts (u : Nat) (f : Op → Op) : (s.modOp u f).contexts = s.contexts := rfl
@[simp] theorem State.modOp_queues (u : Nat) (f : Op → Op) : (s.modOp u f).queues = s.queues := rfl
@[simp] theorem State.modOp_rrLast (u : Nat) (f : Op → Op) : (s.modOp u f).rrLast = s.rrLast := rfl
@[simp] theorem State.modOp_launchedOnce (u : Nat) (f : Op → Op) : (s.modOp u f).launchedOnce = s.launchedOnce := rfl
@[simp] theorem State.modOp_hostCommands (u : Nat) (f : Op → Op) : (s.modOp u f).hostCommands = s.hostCommands := rfl
@[simp] theorem State.modOp_cmdDone (u : Nat) (f : Op → Op) : (s.modOp u f).cmdDone = s.cmdDone := rfl
@[simp] theorem State.modOp_cmdStat (u : Nat) (f : Op → Op) : (s.modOp u f).cmdStat = s.cmdStat := rfl
@[simp] theorem State.modOp_mc (u : Nat) (f : Op → Op) : (s.modOp u f).mc = s.mc := rfl
@[simp] theorem State.modOp_fq (u : Nat) (f : Op → Op) : (s.modOp u f).fq = s.fq := rfl
@[simp] theorem State.modOp_edCtx (u : Nat) (f : Op → Op) : (s.modOp u f).edCtx = s.edCtx := rfl
@[simp] theorem State.modOp_edCount (u : Nat) (f : Op → Op) : (s.modOp u f).edCount = s.edCount := rfl
@[simp] theorem State.modOp_msix (u : Nat) (f : Op → Op) : (s.modOp u f).msix = s.msix := rfl
@[simp] theorem State.modOp_hostReads (u : Nat) (f : Op → Op) : (s.modOp u f).hostReads = s.hostReads := rfl
@[simp] theorem State.modOp_apertures (u : Nat) (f : Op → Op) : (s.modOp u f).apertures = s.apertures := rfl
@[simp] theorem State.modOp_remotes (u : Nat) (f : Op → Op) : (s.modOp u f).remotes = s.remotes := rfl
@[simp] theorem State.modOp_unitFetched (u : Nat) (f : Op → Op) : (s.modOp u f).unitFetched = s.unitFetched := rfl
@[simp] theorem State.modOp_unitFailed (u : Nat) (f : Op → Op) : (s.modOp u f).unitFailed = s.unitFailed := rfl
@[simp] theorem State.modOp_unitWrites (u : Nat) (f : Op → Op) : (s.modOp u f).unitWrites = s.unitWrites := rfl
@[simp] theorem State.modOp_outPackets (u : Nat) (f : Op → Op) : (s.modOp u f).outPackets = s.outPackets := rfl
@[simp] theorem State.modOp_walks (u : Nat) (f : Op → Op) : (s.modOp u f).walks = s.walks := rfl
@[simp] theorem State.modOp_invals (u : Nat) (f : Op → Op) : (s.modOp u f).invals = s.invals := rfl
@[simp] theorem State.modOp_faults (u : Nat) (f : Op → Op) : (s.modOp u f).faults = s.faults := rfl
@[simp] theorem State.modOp_audits (u : Nat) (f : Op → Op) : (s.modOp u f).audits = s.audits := rfl
@[simp] theorem State.modOp_arrayErrors (u : Nat) (f : Op → Op) : (s.modOp u f).arrayErrors = s.arrayErrors := rfl
@[simp] theorem State.modOp_island (u : Nat) (f : Op → Op) : (s.modOp u f).island = s.island := rfl
@[simp] theorem State.modOp_inbox (u : Nat) (f : Op → Op) : (s.modOp u f).inbox = s.inbox := rfl
@[simp] theorem State.modOp_agenda (u : Nat) (f : Op → Op) : (s.modOp u f).agenda = s.agenda := rfl
@[simp] theorem State.modOp_cur (u : Nat) (f : Op → Op) : (s.modOp u f).cur = s.cur := rfl
@[simp] theorem State.modOp_tick (u : Nat) (f : Op → Op) : (s.modOp u f).tick = s.tick := rfl
@[simp] theorem State.modOp_nextUid (u : Nat) (f : Op → Op) : (s.modOp u f).nextUid = s.nextUid := rfl

@[simp] theorem State.dropOp_mem (u : Nat) : (s.dropOp u).mem = s.mem := rfl
@[simp] theorem State.dropOp_l2 (u : Nat) : (s.dropOp u).l2 = s.l2 := rfl
@[simp] theorem State.dropOp_syncLines (u : Nat) : (s.dropOp u).syncLines = s.syncLines := rfl
@[simp] theorem State.dropOp_cores (u : Nat) : (s.dropOp u).cores = s.cores := rfl
@[simp] theorem State.dropOp_teams (u : Nat) : (s.dropOp u).teams = s.teams := rfl
@[simp] theorem State.dropOp_launches (u : Nat) : (s.dropOp u).launches = s.launches := rfl
@[simp] theorem State.dropOp_tasks (u : Nat) : (s.dropOp u).tasks = s.tasks := rfl
@[simp] theorem State.dropOp_traces (u : Nat) : (s.dropOp u).traces = s.traces := rfl
@[simp] theorem State.dropOp_props (u : Nat) : (s.dropOp u).props = s.props := rfl
@[simp] theorem State.dropOp_claims (u : Nat) : (s.dropOp u).claims = s.claims := rfl
@[simp] theorem State.dropOp_backingBase (u : Nat) : (s.dropOp u).backingBase = s.backingBase := rfl
@[simp] theorem State.dropOp_backingEntries (u : Nat) : (s.dropOp u).backingEntries = s.backingEntries := rfl
@[simp] theorem State.dropOp_contexts (u : Nat) : (s.dropOp u).contexts = s.contexts := rfl
@[simp] theorem State.dropOp_queues (u : Nat) : (s.dropOp u).queues = s.queues := rfl
@[simp] theorem State.dropOp_rrLast (u : Nat) : (s.dropOp u).rrLast = s.rrLast := rfl
@[simp] theorem State.dropOp_launchedOnce (u : Nat) : (s.dropOp u).launchedOnce = s.launchedOnce := rfl
@[simp] theorem State.dropOp_hostCommands (u : Nat) : (s.dropOp u).hostCommands = s.hostCommands := rfl
@[simp] theorem State.dropOp_cmdDone (u : Nat) : (s.dropOp u).cmdDone = s.cmdDone := rfl
@[simp] theorem State.dropOp_cmdStat (u : Nat) : (s.dropOp u).cmdStat = s.cmdStat := rfl
@[simp] theorem State.dropOp_mc (u : Nat) : (s.dropOp u).mc = s.mc := rfl
@[simp] theorem State.dropOp_fq (u : Nat) : (s.dropOp u).fq = s.fq := rfl
@[simp] theorem State.dropOp_edCtx (u : Nat) : (s.dropOp u).edCtx = s.edCtx := rfl
@[simp] theorem State.dropOp_edCount (u : Nat) : (s.dropOp u).edCount = s.edCount := rfl
@[simp] theorem State.dropOp_msix (u : Nat) : (s.dropOp u).msix = s.msix := rfl
@[simp] theorem State.dropOp_hostReads (u : Nat) : (s.dropOp u).hostReads = s.hostReads := rfl
@[simp] theorem State.dropOp_apertures (u : Nat) : (s.dropOp u).apertures = s.apertures := rfl
@[simp] theorem State.dropOp_remotes (u : Nat) : (s.dropOp u).remotes = s.remotes := rfl
@[simp] theorem State.dropOp_unitFetched (u : Nat) : (s.dropOp u).unitFetched = s.unitFetched := rfl
@[simp] theorem State.dropOp_unitFailed (u : Nat) : (s.dropOp u).unitFailed = s.unitFailed := rfl
@[simp] theorem State.dropOp_unitWrites (u : Nat) : (s.dropOp u).unitWrites = s.unitWrites := rfl
@[simp] theorem State.dropOp_outPackets (u : Nat) : (s.dropOp u).outPackets = s.outPackets := rfl
@[simp] theorem State.dropOp_walks (u : Nat) : (s.dropOp u).walks = s.walks := rfl
@[simp] theorem State.dropOp_invals (u : Nat) : (s.dropOp u).invals = s.invals := rfl
@[simp] theorem State.dropOp_faults (u : Nat) : (s.dropOp u).faults = s.faults := rfl
@[simp] theorem State.dropOp_audits (u : Nat) : (s.dropOp u).audits = s.audits := rfl
@[simp] theorem State.dropOp_arrayErrors (u : Nat) : (s.dropOp u).arrayErrors = s.arrayErrors := rfl
@[simp] theorem State.dropOp_island (u : Nat) : (s.dropOp u).island = s.island := rfl
@[simp] theorem State.dropOp_inbox (u : Nat) : (s.dropOp u).inbox = s.inbox := rfl
@[simp] theorem State.dropOp_agenda (u : Nat) : (s.dropOp u).agenda = s.agenda := rfl
@[simp] theorem State.dropOp_cur (u : Nat) : (s.dropOp u).cur = s.cur := rfl
@[simp] theorem State.dropOp_tick (u : Nat) : (s.dropOp u).tick = s.tick := rfl
@[simp] theorem State.dropOp_nextUid (u : Nat) : (s.dropOp u).nextUid = s.nextUid := rfl

@[simp] theorem State.modLaunch_mem (u : Nat) (f : Launch → Launch) : (s.modLaunch u f).mem = s.mem := rfl
@[simp] theorem State.modLaunch_l2 (u : Nat) (f : Launch → Launch) : (s.modLaunch u f).l2 = s.l2 := rfl
@[simp] theorem State.modLaunch_syncLines (u : Nat) (f : Launch → Launch) : (s.modLaunch u f).syncLines = s.syncLines := rfl
@[simp] theorem State.modLaunch_cores (u : Nat) (f : Launch → Launch) : (s.modLaunch u f).cores = s.cores := rfl
@[simp] theorem State.modLaunch_teams (u : Nat) (f : Launch → Launch) : (s.modLaunch u f).teams = s.teams := rfl
@[simp] theorem State.modLaunch_ops (u : Nat) (f : Launch → Launch) : (s.modLaunch u f).ops = s.ops := rfl
@[simp] theorem State.modLaunch_tasks (u : Nat) (f : Launch → Launch) : (s.modLaunch u f).tasks = s.tasks := rfl
@[simp] theorem State.modLaunch_traces (u : Nat) (f : Launch → Launch) : (s.modLaunch u f).traces = s.traces := rfl
@[simp] theorem State.modLaunch_props (u : Nat) (f : Launch → Launch) : (s.modLaunch u f).props = s.props := rfl
@[simp] theorem State.modLaunch_claims (u : Nat) (f : Launch → Launch) : (s.modLaunch u f).claims = s.claims := rfl
@[simp] theorem State.modLaunch_backingBase (u : Nat) (f : Launch → Launch) : (s.modLaunch u f).backingBase = s.backingBase := rfl
@[simp] theorem State.modLaunch_backingEntries (u : Nat) (f : Launch → Launch) : (s.modLaunch u f).backingEntries = s.backingEntries := rfl
@[simp] theorem State.modLaunch_contexts (u : Nat) (f : Launch → Launch) : (s.modLaunch u f).contexts = s.contexts := rfl
@[simp] theorem State.modLaunch_queues (u : Nat) (f : Launch → Launch) : (s.modLaunch u f).queues = s.queues := rfl
@[simp] theorem State.modLaunch_rrLast (u : Nat) (f : Launch → Launch) : (s.modLaunch u f).rrLast = s.rrLast := rfl
@[simp] theorem State.modLaunch_launchedOnce (u : Nat) (f : Launch → Launch) : (s.modLaunch u f).launchedOnce = s.launchedOnce := rfl
@[simp] theorem State.modLaunch_hostCommands (u : Nat) (f : Launch → Launch) : (s.modLaunch u f).hostCommands = s.hostCommands := rfl
@[simp] theorem State.modLaunch_cmdDone (u : Nat) (f : Launch → Launch) : (s.modLaunch u f).cmdDone = s.cmdDone := rfl
@[simp] theorem State.modLaunch_cmdStat (u : Nat) (f : Launch → Launch) : (s.modLaunch u f).cmdStat = s.cmdStat := rfl
@[simp] theorem State.modLaunch_mc (u : Nat) (f : Launch → Launch) : (s.modLaunch u f).mc = s.mc := rfl
@[simp] theorem State.modLaunch_fq (u : Nat) (f : Launch → Launch) : (s.modLaunch u f).fq = s.fq := rfl
@[simp] theorem State.modLaunch_edCtx (u : Nat) (f : Launch → Launch) : (s.modLaunch u f).edCtx = s.edCtx := rfl
@[simp] theorem State.modLaunch_edCount (u : Nat) (f : Launch → Launch) : (s.modLaunch u f).edCount = s.edCount := rfl
@[simp] theorem State.modLaunch_msix (u : Nat) (f : Launch → Launch) : (s.modLaunch u f).msix = s.msix := rfl
@[simp] theorem State.modLaunch_hostReads (u : Nat) (f : Launch → Launch) : (s.modLaunch u f).hostReads = s.hostReads := rfl
@[simp] theorem State.modLaunch_apertures (u : Nat) (f : Launch → Launch) : (s.modLaunch u f).apertures = s.apertures := rfl
@[simp] theorem State.modLaunch_remotes (u : Nat) (f : Launch → Launch) : (s.modLaunch u f).remotes = s.remotes := rfl
@[simp] theorem State.modLaunch_unitFetched (u : Nat) (f : Launch → Launch) : (s.modLaunch u f).unitFetched = s.unitFetched := rfl
@[simp] theorem State.modLaunch_unitFailed (u : Nat) (f : Launch → Launch) : (s.modLaunch u f).unitFailed = s.unitFailed := rfl
@[simp] theorem State.modLaunch_unitWrites (u : Nat) (f : Launch → Launch) : (s.modLaunch u f).unitWrites = s.unitWrites := rfl
@[simp] theorem State.modLaunch_outPackets (u : Nat) (f : Launch → Launch) : (s.modLaunch u f).outPackets = s.outPackets := rfl
@[simp] theorem State.modLaunch_walks (u : Nat) (f : Launch → Launch) : (s.modLaunch u f).walks = s.walks := rfl
@[simp] theorem State.modLaunch_invals (u : Nat) (f : Launch → Launch) : (s.modLaunch u f).invals = s.invals := rfl
@[simp] theorem State.modLaunch_faults (u : Nat) (f : Launch → Launch) : (s.modLaunch u f).faults = s.faults := rfl
@[simp] theorem State.modLaunch_audits (u : Nat) (f : Launch → Launch) : (s.modLaunch u f).audits = s.audits := rfl
@[simp] theorem State.modLaunch_arrayErrors (u : Nat) (f : Launch → Launch) : (s.modLaunch u f).arrayErrors = s.arrayErrors := rfl
@[simp] theorem State.modLaunch_island (u : Nat) (f : Launch → Launch) : (s.modLaunch u f).island = s.island := rfl
@[simp] theorem State.modLaunch_inbox (u : Nat) (f : Launch → Launch) : (s.modLaunch u f).inbox = s.inbox := rfl
@[simp] theorem State.modLaunch_agenda (u : Nat) (f : Launch → Launch) : (s.modLaunch u f).agenda = s.agenda := rfl
@[simp] theorem State.modLaunch_cur (u : Nat) (f : Launch → Launch) : (s.modLaunch u f).cur = s.cur := rfl
@[simp] theorem State.modLaunch_tick (u : Nat) (f : Launch → Launch) : (s.modLaunch u f).tick = s.tick := rfl
@[simp] theorem State.modLaunch_nextUid (u : Nat) (f : Launch → Launch) : (s.modLaunch u f).nextUid = s.nextUid := rfl

@[simp] theorem State.modTask_mem (u : Nat) (f : Task → Task) : (s.modTask u f).mem = s.mem := rfl
@[simp] theorem State.modTask_l2 (u : Nat) (f : Task → Task) : (s.modTask u f).l2 = s.l2 := rfl
@[simp] theorem State.modTask_syncLines (u : Nat) (f : Task → Task) : (s.modTask u f).syncLines = s.syncLines := rfl
@[simp] theorem State.modTask_cores (u : Nat) (f : Task → Task) : (s.modTask u f).cores = s.cores := rfl
@[simp] theorem State.modTask_teams (u : Nat) (f : Task → Task) : (s.modTask u f).teams = s.teams := rfl
@[simp] theorem State.modTask_ops (u : Nat) (f : Task → Task) : (s.modTask u f).ops = s.ops := rfl
@[simp] theorem State.modTask_launches (u : Nat) (f : Task → Task) : (s.modTask u f).launches = s.launches := rfl
@[simp] theorem State.modTask_traces (u : Nat) (f : Task → Task) : (s.modTask u f).traces = s.traces := rfl
@[simp] theorem State.modTask_props (u : Nat) (f : Task → Task) : (s.modTask u f).props = s.props := rfl
@[simp] theorem State.modTask_claims (u : Nat) (f : Task → Task) : (s.modTask u f).claims = s.claims := rfl
@[simp] theorem State.modTask_backingBase (u : Nat) (f : Task → Task) : (s.modTask u f).backingBase = s.backingBase := rfl
@[simp] theorem State.modTask_backingEntries (u : Nat) (f : Task → Task) : (s.modTask u f).backingEntries = s.backingEntries := rfl
@[simp] theorem State.modTask_contexts (u : Nat) (f : Task → Task) : (s.modTask u f).contexts = s.contexts := rfl
@[simp] theorem State.modTask_queues (u : Nat) (f : Task → Task) : (s.modTask u f).queues = s.queues := rfl
@[simp] theorem State.modTask_rrLast (u : Nat) (f : Task → Task) : (s.modTask u f).rrLast = s.rrLast := rfl
@[simp] theorem State.modTask_launchedOnce (u : Nat) (f : Task → Task) : (s.modTask u f).launchedOnce = s.launchedOnce := rfl
@[simp] theorem State.modTask_hostCommands (u : Nat) (f : Task → Task) : (s.modTask u f).hostCommands = s.hostCommands := rfl
@[simp] theorem State.modTask_cmdDone (u : Nat) (f : Task → Task) : (s.modTask u f).cmdDone = s.cmdDone := rfl
@[simp] theorem State.modTask_cmdStat (u : Nat) (f : Task → Task) : (s.modTask u f).cmdStat = s.cmdStat := rfl
@[simp] theorem State.modTask_mc (u : Nat) (f : Task → Task) : (s.modTask u f).mc = s.mc := rfl
@[simp] theorem State.modTask_fq (u : Nat) (f : Task → Task) : (s.modTask u f).fq = s.fq := rfl
@[simp] theorem State.modTask_edCtx (u : Nat) (f : Task → Task) : (s.modTask u f).edCtx = s.edCtx := rfl
@[simp] theorem State.modTask_edCount (u : Nat) (f : Task → Task) : (s.modTask u f).edCount = s.edCount := rfl
@[simp] theorem State.modTask_msix (u : Nat) (f : Task → Task) : (s.modTask u f).msix = s.msix := rfl
@[simp] theorem State.modTask_hostReads (u : Nat) (f : Task → Task) : (s.modTask u f).hostReads = s.hostReads := rfl
@[simp] theorem State.modTask_apertures (u : Nat) (f : Task → Task) : (s.modTask u f).apertures = s.apertures := rfl
@[simp] theorem State.modTask_remotes (u : Nat) (f : Task → Task) : (s.modTask u f).remotes = s.remotes := rfl
@[simp] theorem State.modTask_unitFetched (u : Nat) (f : Task → Task) : (s.modTask u f).unitFetched = s.unitFetched := rfl
@[simp] theorem State.modTask_unitFailed (u : Nat) (f : Task → Task) : (s.modTask u f).unitFailed = s.unitFailed := rfl
@[simp] theorem State.modTask_unitWrites (u : Nat) (f : Task → Task) : (s.modTask u f).unitWrites = s.unitWrites := rfl
@[simp] theorem State.modTask_outPackets (u : Nat) (f : Task → Task) : (s.modTask u f).outPackets = s.outPackets := rfl
@[simp] theorem State.modTask_walks (u : Nat) (f : Task → Task) : (s.modTask u f).walks = s.walks := rfl
@[simp] theorem State.modTask_invals (u : Nat) (f : Task → Task) : (s.modTask u f).invals = s.invals := rfl
@[simp] theorem State.modTask_faults (u : Nat) (f : Task → Task) : (s.modTask u f).faults = s.faults := rfl
@[simp] theorem State.modTask_audits (u : Nat) (f : Task → Task) : (s.modTask u f).audits = s.audits := rfl
@[simp] theorem State.modTask_arrayErrors (u : Nat) (f : Task → Task) : (s.modTask u f).arrayErrors = s.arrayErrors := rfl
@[simp] theorem State.modTask_island (u : Nat) (f : Task → Task) : (s.modTask u f).island = s.island := rfl
@[simp] theorem State.modTask_inbox (u : Nat) (f : Task → Task) : (s.modTask u f).inbox = s.inbox := rfl
@[simp] theorem State.modTask_agenda (u : Nat) (f : Task → Task) : (s.modTask u f).agenda = s.agenda := rfl
@[simp] theorem State.modTask_cur (u : Nat) (f : Task → Task) : (s.modTask u f).cur = s.cur := rfl
@[simp] theorem State.modTask_tick (u : Nat) (f : Task → Task) : (s.modTask u f).tick = s.tick := rfl
@[simp] theorem State.modTask_nextUid (u : Nat) (f : Task → Task) : (s.modTask u f).nextUid = s.nextUid := rfl

@[simp] theorem State.modCore_mem (c : Nat) (f : Core → Core) : (s.modCore c f).mem = s.mem := rfl
@[simp] theorem State.modCore_l2 (c : Nat) (f : Core → Core) : (s.modCore c f).l2 = s.l2 := rfl
@[simp] theorem State.modCore_syncLines (c : Nat) (f : Core → Core) : (s.modCore c f).syncLines = s.syncLines := rfl
@[simp] theorem State.modCore_teams (c : Nat) (f : Core → Core) : (s.modCore c f).teams = s.teams := rfl
@[simp] theorem State.modCore_ops (c : Nat) (f : Core → Core) : (s.modCore c f).ops = s.ops := rfl
@[simp] theorem State.modCore_launches (c : Nat) (f : Core → Core) : (s.modCore c f).launches = s.launches := rfl
@[simp] theorem State.modCore_tasks (c : Nat) (f : Core → Core) : (s.modCore c f).tasks = s.tasks := rfl
@[simp] theorem State.modCore_traces (c : Nat) (f : Core → Core) : (s.modCore c f).traces = s.traces := rfl
@[simp] theorem State.modCore_props (c : Nat) (f : Core → Core) : (s.modCore c f).props = s.props := rfl
@[simp] theorem State.modCore_claims (c : Nat) (f : Core → Core) : (s.modCore c f).claims = s.claims := rfl
@[simp] theorem State.modCore_backingBase (c : Nat) (f : Core → Core) : (s.modCore c f).backingBase = s.backingBase := rfl
@[simp] theorem State.modCore_backingEntries (c : Nat) (f : Core → Core) : (s.modCore c f).backingEntries = s.backingEntries := rfl
@[simp] theorem State.modCore_contexts (c : Nat) (f : Core → Core) : (s.modCore c f).contexts = s.contexts := rfl
@[simp] theorem State.modCore_queues (c : Nat) (f : Core → Core) : (s.modCore c f).queues = s.queues := rfl
@[simp] theorem State.modCore_rrLast (c : Nat) (f : Core → Core) : (s.modCore c f).rrLast = s.rrLast := rfl
@[simp] theorem State.modCore_launchedOnce (c : Nat) (f : Core → Core) : (s.modCore c f).launchedOnce = s.launchedOnce := rfl
@[simp] theorem State.modCore_hostCommands (c : Nat) (f : Core → Core) : (s.modCore c f).hostCommands = s.hostCommands := rfl
@[simp] theorem State.modCore_cmdDone (c : Nat) (f : Core → Core) : (s.modCore c f).cmdDone = s.cmdDone := rfl
@[simp] theorem State.modCore_cmdStat (c : Nat) (f : Core → Core) : (s.modCore c f).cmdStat = s.cmdStat := rfl
@[simp] theorem State.modCore_mc (c : Nat) (f : Core → Core) : (s.modCore c f).mc = s.mc := rfl
@[simp] theorem State.modCore_fq (c : Nat) (f : Core → Core) : (s.modCore c f).fq = s.fq := rfl
@[simp] theorem State.modCore_edCtx (c : Nat) (f : Core → Core) : (s.modCore c f).edCtx = s.edCtx := rfl
@[simp] theorem State.modCore_edCount (c : Nat) (f : Core → Core) : (s.modCore c f).edCount = s.edCount := rfl
@[simp] theorem State.modCore_msix (c : Nat) (f : Core → Core) : (s.modCore c f).msix = s.msix := rfl
@[simp] theorem State.modCore_hostReads (c : Nat) (f : Core → Core) : (s.modCore c f).hostReads = s.hostReads := rfl
@[simp] theorem State.modCore_apertures (c : Nat) (f : Core → Core) : (s.modCore c f).apertures = s.apertures := rfl
@[simp] theorem State.modCore_remotes (c : Nat) (f : Core → Core) : (s.modCore c f).remotes = s.remotes := rfl
@[simp] theorem State.modCore_unitFetched (c : Nat) (f : Core → Core) : (s.modCore c f).unitFetched = s.unitFetched := rfl
@[simp] theorem State.modCore_unitFailed (c : Nat) (f : Core → Core) : (s.modCore c f).unitFailed = s.unitFailed := rfl
@[simp] theorem State.modCore_unitWrites (c : Nat) (f : Core → Core) : (s.modCore c f).unitWrites = s.unitWrites := rfl
@[simp] theorem State.modCore_outPackets (c : Nat) (f : Core → Core) : (s.modCore c f).outPackets = s.outPackets := rfl
@[simp] theorem State.modCore_walks (c : Nat) (f : Core → Core) : (s.modCore c f).walks = s.walks := rfl
@[simp] theorem State.modCore_invals (c : Nat) (f : Core → Core) : (s.modCore c f).invals = s.invals := rfl
@[simp] theorem State.modCore_faults (c : Nat) (f : Core → Core) : (s.modCore c f).faults = s.faults := rfl
@[simp] theorem State.modCore_audits (c : Nat) (f : Core → Core) : (s.modCore c f).audits = s.audits := rfl
@[simp] theorem State.modCore_arrayErrors (c : Nat) (f : Core → Core) : (s.modCore c f).arrayErrors = s.arrayErrors := rfl
@[simp] theorem State.modCore_island (c : Nat) (f : Core → Core) : (s.modCore c f).island = s.island := rfl
@[simp] theorem State.modCore_inbox (c : Nat) (f : Core → Core) : (s.modCore c f).inbox = s.inbox := rfl
@[simp] theorem State.modCore_agenda (c : Nat) (f : Core → Core) : (s.modCore c f).agenda = s.agenda := rfl
@[simp] theorem State.modCore_cur (c : Nat) (f : Core → Core) : (s.modCore c f).cur = s.cur := rfl
@[simp] theorem State.modCore_tick (c : Nat) (f : Core → Core) : (s.modCore c f).tick = s.tick := rfl
@[simp] theorem State.modCore_nextUid (c : Nat) (f : Core → Core) : (s.modCore c f).nextUid = s.nextUid := rfl

@[simp] theorem State.modTrace_mem (c : Nat) (f : Trace → Trace) : (s.modTrace c f).mem = s.mem := rfl
@[simp] theorem State.modTrace_l2 (c : Nat) (f : Trace → Trace) : (s.modTrace c f).l2 = s.l2 := rfl
@[simp] theorem State.modTrace_syncLines (c : Nat) (f : Trace → Trace) : (s.modTrace c f).syncLines = s.syncLines := rfl
@[simp] theorem State.modTrace_cores (c : Nat) (f : Trace → Trace) : (s.modTrace c f).cores = s.cores := rfl
@[simp] theorem State.modTrace_teams (c : Nat) (f : Trace → Trace) : (s.modTrace c f).teams = s.teams := rfl
@[simp] theorem State.modTrace_ops (c : Nat) (f : Trace → Trace) : (s.modTrace c f).ops = s.ops := rfl
@[simp] theorem State.modTrace_launches (c : Nat) (f : Trace → Trace) : (s.modTrace c f).launches = s.launches := rfl
@[simp] theorem State.modTrace_tasks (c : Nat) (f : Trace → Trace) : (s.modTrace c f).tasks = s.tasks := rfl
@[simp] theorem State.modTrace_props (c : Nat) (f : Trace → Trace) : (s.modTrace c f).props = s.props := rfl
@[simp] theorem State.modTrace_claims (c : Nat) (f : Trace → Trace) : (s.modTrace c f).claims = s.claims := rfl
@[simp] theorem State.modTrace_backingBase (c : Nat) (f : Trace → Trace) : (s.modTrace c f).backingBase = s.backingBase := rfl
@[simp] theorem State.modTrace_backingEntries (c : Nat) (f : Trace → Trace) : (s.modTrace c f).backingEntries = s.backingEntries := rfl
@[simp] theorem State.modTrace_contexts (c : Nat) (f : Trace → Trace) : (s.modTrace c f).contexts = s.contexts := rfl
@[simp] theorem State.modTrace_queues (c : Nat) (f : Trace → Trace) : (s.modTrace c f).queues = s.queues := rfl
@[simp] theorem State.modTrace_rrLast (c : Nat) (f : Trace → Trace) : (s.modTrace c f).rrLast = s.rrLast := rfl
@[simp] theorem State.modTrace_launchedOnce (c : Nat) (f : Trace → Trace) : (s.modTrace c f).launchedOnce = s.launchedOnce := rfl
@[simp] theorem State.modTrace_hostCommands (c : Nat) (f : Trace → Trace) : (s.modTrace c f).hostCommands = s.hostCommands := rfl
@[simp] theorem State.modTrace_cmdDone (c : Nat) (f : Trace → Trace) : (s.modTrace c f).cmdDone = s.cmdDone := rfl
@[simp] theorem State.modTrace_cmdStat (c : Nat) (f : Trace → Trace) : (s.modTrace c f).cmdStat = s.cmdStat := rfl
@[simp] theorem State.modTrace_mc (c : Nat) (f : Trace → Trace) : (s.modTrace c f).mc = s.mc := rfl
@[simp] theorem State.modTrace_fq (c : Nat) (f : Trace → Trace) : (s.modTrace c f).fq = s.fq := rfl
@[simp] theorem State.modTrace_edCtx (c : Nat) (f : Trace → Trace) : (s.modTrace c f).edCtx = s.edCtx := rfl
@[simp] theorem State.modTrace_edCount (c : Nat) (f : Trace → Trace) : (s.modTrace c f).edCount = s.edCount := rfl
@[simp] theorem State.modTrace_msix (c : Nat) (f : Trace → Trace) : (s.modTrace c f).msix = s.msix := rfl
@[simp] theorem State.modTrace_hostReads (c : Nat) (f : Trace → Trace) : (s.modTrace c f).hostReads = s.hostReads := rfl
@[simp] theorem State.modTrace_apertures (c : Nat) (f : Trace → Trace) : (s.modTrace c f).apertures = s.apertures := rfl
@[simp] theorem State.modTrace_remotes (c : Nat) (f : Trace → Trace) : (s.modTrace c f).remotes = s.remotes := rfl
@[simp] theorem State.modTrace_unitFetched (c : Nat) (f : Trace → Trace) : (s.modTrace c f).unitFetched = s.unitFetched := rfl
@[simp] theorem State.modTrace_unitFailed (c : Nat) (f : Trace → Trace) : (s.modTrace c f).unitFailed = s.unitFailed := rfl
@[simp] theorem State.modTrace_unitWrites (c : Nat) (f : Trace → Trace) : (s.modTrace c f).unitWrites = s.unitWrites := rfl
@[simp] theorem State.modTrace_outPackets (c : Nat) (f : Trace → Trace) : (s.modTrace c f).outPackets = s.outPackets := rfl
@[simp] theorem State.modTrace_walks (c : Nat) (f : Trace → Trace) : (s.modTrace c f).walks = s.walks := rfl
@[simp] theorem State.modTrace_invals (c : Nat) (f : Trace → Trace) : (s.modTrace c f).invals = s.invals := rfl
@[simp] theorem State.modTrace_faults (c : Nat) (f : Trace → Trace) : (s.modTrace c f).faults = s.faults := rfl
@[simp] theorem State.modTrace_audits (c : Nat) (f : Trace → Trace) : (s.modTrace c f).audits = s.audits := rfl
@[simp] theorem State.modTrace_arrayErrors (c : Nat) (f : Trace → Trace) : (s.modTrace c f).arrayErrors = s.arrayErrors := rfl
@[simp] theorem State.modTrace_island (c : Nat) (f : Trace → Trace) : (s.modTrace c f).island = s.island := rfl
@[simp] theorem State.modTrace_inbox (c : Nat) (f : Trace → Trace) : (s.modTrace c f).inbox = s.inbox := rfl
@[simp] theorem State.modTrace_agenda (c : Nat) (f : Trace → Trace) : (s.modTrace c f).agenda = s.agenda := rfl
@[simp] theorem State.modTrace_cur (c : Nat) (f : Trace → Trace) : (s.modTrace c f).cur = s.cur := rfl
@[simp] theorem State.modTrace_tick (c : Nat) (f : Trace → Trace) : (s.modTrace c f).tick = s.tick := rfl
@[simp] theorem State.modTrace_nextUid (c : Nat) (f : Trace → Trace) : (s.modTrace c f).nextUid = s.nextUid := rfl

@[simp] theorem State.modQueue_mem (q : Nat) (f : Queue → Queue) : (s.modQueue q f).mem = s.mem := rfl
@[simp] theorem State.modQueue_l2 (q : Nat) (f : Queue → Queue) : (s.modQueue q f).l2 = s.l2 := rfl
@[simp] theorem State.modQueue_syncLines (q : Nat) (f : Queue → Queue) : (s.modQueue q f).syncLines = s.syncLines := rfl
@[simp] theorem State.modQueue_cores (q : Nat) (f : Queue → Queue) : (s.modQueue q f).cores = s.cores := rfl
@[simp] theorem State.modQueue_teams (q : Nat) (f : Queue → Queue) : (s.modQueue q f).teams = s.teams := rfl
@[simp] theorem State.modQueue_ops (q : Nat) (f : Queue → Queue) : (s.modQueue q f).ops = s.ops := rfl
@[simp] theorem State.modQueue_launches (q : Nat) (f : Queue → Queue) : (s.modQueue q f).launches = s.launches := rfl
@[simp] theorem State.modQueue_tasks (q : Nat) (f : Queue → Queue) : (s.modQueue q f).tasks = s.tasks := rfl
@[simp] theorem State.modQueue_traces (q : Nat) (f : Queue → Queue) : (s.modQueue q f).traces = s.traces := rfl
@[simp] theorem State.modQueue_props (q : Nat) (f : Queue → Queue) : (s.modQueue q f).props = s.props := rfl
@[simp] theorem State.modQueue_claims (q : Nat) (f : Queue → Queue) : (s.modQueue q f).claims = s.claims := rfl
@[simp] theorem State.modQueue_backingBase (q : Nat) (f : Queue → Queue) : (s.modQueue q f).backingBase = s.backingBase := rfl
@[simp] theorem State.modQueue_backingEntries (q : Nat) (f : Queue → Queue) : (s.modQueue q f).backingEntries = s.backingEntries := rfl
@[simp] theorem State.modQueue_contexts (q : Nat) (f : Queue → Queue) : (s.modQueue q f).contexts = s.contexts := rfl
@[simp] theorem State.modQueue_rrLast (q : Nat) (f : Queue → Queue) : (s.modQueue q f).rrLast = s.rrLast := rfl
@[simp] theorem State.modQueue_launchedOnce (q : Nat) (f : Queue → Queue) : (s.modQueue q f).launchedOnce = s.launchedOnce := rfl
@[simp] theorem State.modQueue_hostCommands (q : Nat) (f : Queue → Queue) : (s.modQueue q f).hostCommands = s.hostCommands := rfl
@[simp] theorem State.modQueue_cmdDone (q : Nat) (f : Queue → Queue) : (s.modQueue q f).cmdDone = s.cmdDone := rfl
@[simp] theorem State.modQueue_cmdStat (q : Nat) (f : Queue → Queue) : (s.modQueue q f).cmdStat = s.cmdStat := rfl
@[simp] theorem State.modQueue_mc (q : Nat) (f : Queue → Queue) : (s.modQueue q f).mc = s.mc := rfl
@[simp] theorem State.modQueue_fq (q : Nat) (f : Queue → Queue) : (s.modQueue q f).fq = s.fq := rfl
@[simp] theorem State.modQueue_edCtx (q : Nat) (f : Queue → Queue) : (s.modQueue q f).edCtx = s.edCtx := rfl
@[simp] theorem State.modQueue_edCount (q : Nat) (f : Queue → Queue) : (s.modQueue q f).edCount = s.edCount := rfl
@[simp] theorem State.modQueue_msix (q : Nat) (f : Queue → Queue) : (s.modQueue q f).msix = s.msix := rfl
@[simp] theorem State.modQueue_hostReads (q : Nat) (f : Queue → Queue) : (s.modQueue q f).hostReads = s.hostReads := rfl
@[simp] theorem State.modQueue_apertures (q : Nat) (f : Queue → Queue) : (s.modQueue q f).apertures = s.apertures := rfl
@[simp] theorem State.modQueue_remotes (q : Nat) (f : Queue → Queue) : (s.modQueue q f).remotes = s.remotes := rfl
@[simp] theorem State.modQueue_unitFetched (q : Nat) (f : Queue → Queue) : (s.modQueue q f).unitFetched = s.unitFetched := rfl
@[simp] theorem State.modQueue_unitFailed (q : Nat) (f : Queue → Queue) : (s.modQueue q f).unitFailed = s.unitFailed := rfl
@[simp] theorem State.modQueue_unitWrites (q : Nat) (f : Queue → Queue) : (s.modQueue q f).unitWrites = s.unitWrites := rfl
@[simp] theorem State.modQueue_outPackets (q : Nat) (f : Queue → Queue) : (s.modQueue q f).outPackets = s.outPackets := rfl
@[simp] theorem State.modQueue_walks (q : Nat) (f : Queue → Queue) : (s.modQueue q f).walks = s.walks := rfl
@[simp] theorem State.modQueue_invals (q : Nat) (f : Queue → Queue) : (s.modQueue q f).invals = s.invals := rfl
@[simp] theorem State.modQueue_faults (q : Nat) (f : Queue → Queue) : (s.modQueue q f).faults = s.faults := rfl
@[simp] theorem State.modQueue_audits (q : Nat) (f : Queue → Queue) : (s.modQueue q f).audits = s.audits := rfl
@[simp] theorem State.modQueue_arrayErrors (q : Nat) (f : Queue → Queue) : (s.modQueue q f).arrayErrors = s.arrayErrors := rfl
@[simp] theorem State.modQueue_island (q : Nat) (f : Queue → Queue) : (s.modQueue q f).island = s.island := rfl
@[simp] theorem State.modQueue_inbox (q : Nat) (f : Queue → Queue) : (s.modQueue q f).inbox = s.inbox := rfl
@[simp] theorem State.modQueue_agenda (q : Nat) (f : Queue → Queue) : (s.modQueue q f).agenda = s.agenda := rfl
@[simp] theorem State.modQueue_cur (q : Nat) (f : Queue → Queue) : (s.modQueue q f).cur = s.cur := rfl
@[simp] theorem State.modQueue_tick (q : Nat) (f : Queue → Queue) : (s.modQueue q f).tick = s.tick := rfl
@[simp] theorem State.modQueue_nextUid (q : Nat) (f : Queue → Queue) : (s.modQueue q f).nextUid = s.nextUid := rfl

@[simp] theorem State.setL2_mem (x : L2Sector) : (s.setL2 x).mem = s.mem := rfl
@[simp] theorem State.setL2_syncLines (x : L2Sector) : (s.setL2 x).syncLines = s.syncLines := rfl
@[simp] theorem State.setL2_cores (x : L2Sector) : (s.setL2 x).cores = s.cores := rfl
@[simp] theorem State.setL2_teams (x : L2Sector) : (s.setL2 x).teams = s.teams := rfl
@[simp] theorem State.setL2_ops (x : L2Sector) : (s.setL2 x).ops = s.ops := rfl
@[simp] theorem State.setL2_launches (x : L2Sector) : (s.setL2 x).launches = s.launches := rfl
@[simp] theorem State.setL2_tasks (x : L2Sector) : (s.setL2 x).tasks = s.tasks := rfl
@[simp] theorem State.setL2_traces (x : L2Sector) : (s.setL2 x).traces = s.traces := rfl
@[simp] theorem State.setL2_props (x : L2Sector) : (s.setL2 x).props = s.props := rfl
@[simp] theorem State.setL2_claims (x : L2Sector) : (s.setL2 x).claims = s.claims := rfl
@[simp] theorem State.setL2_backingBase (x : L2Sector) : (s.setL2 x).backingBase = s.backingBase := rfl
@[simp] theorem State.setL2_backingEntries (x : L2Sector) : (s.setL2 x).backingEntries = s.backingEntries := rfl
@[simp] theorem State.setL2_contexts (x : L2Sector) : (s.setL2 x).contexts = s.contexts := rfl
@[simp] theorem State.setL2_queues (x : L2Sector) : (s.setL2 x).queues = s.queues := rfl
@[simp] theorem State.setL2_rrLast (x : L2Sector) : (s.setL2 x).rrLast = s.rrLast := rfl
@[simp] theorem State.setL2_launchedOnce (x : L2Sector) : (s.setL2 x).launchedOnce = s.launchedOnce := rfl
@[simp] theorem State.setL2_hostCommands (x : L2Sector) : (s.setL2 x).hostCommands = s.hostCommands := rfl
@[simp] theorem State.setL2_cmdDone (x : L2Sector) : (s.setL2 x).cmdDone = s.cmdDone := rfl
@[simp] theorem State.setL2_cmdStat (x : L2Sector) : (s.setL2 x).cmdStat = s.cmdStat := rfl
@[simp] theorem State.setL2_mc (x : L2Sector) : (s.setL2 x).mc = s.mc := rfl
@[simp] theorem State.setL2_fq (x : L2Sector) : (s.setL2 x).fq = s.fq := rfl
@[simp] theorem State.setL2_edCtx (x : L2Sector) : (s.setL2 x).edCtx = s.edCtx := rfl
@[simp] theorem State.setL2_edCount (x : L2Sector) : (s.setL2 x).edCount = s.edCount := rfl
@[simp] theorem State.setL2_msix (x : L2Sector) : (s.setL2 x).msix = s.msix := rfl
@[simp] theorem State.setL2_hostReads (x : L2Sector) : (s.setL2 x).hostReads = s.hostReads := rfl
@[simp] theorem State.setL2_apertures (x : L2Sector) : (s.setL2 x).apertures = s.apertures := rfl
@[simp] theorem State.setL2_remotes (x : L2Sector) : (s.setL2 x).remotes = s.remotes := rfl
@[simp] theorem State.setL2_unitFetched (x : L2Sector) : (s.setL2 x).unitFetched = s.unitFetched := rfl
@[simp] theorem State.setL2_unitFailed (x : L2Sector) : (s.setL2 x).unitFailed = s.unitFailed := rfl
@[simp] theorem State.setL2_unitWrites (x : L2Sector) : (s.setL2 x).unitWrites = s.unitWrites := rfl
@[simp] theorem State.setL2_outPackets (x : L2Sector) : (s.setL2 x).outPackets = s.outPackets := rfl
@[simp] theorem State.setL2_walks (x : L2Sector) : (s.setL2 x).walks = s.walks := rfl
@[simp] theorem State.setL2_invals (x : L2Sector) : (s.setL2 x).invals = s.invals := rfl
@[simp] theorem State.setL2_faults (x : L2Sector) : (s.setL2 x).faults = s.faults := rfl
@[simp] theorem State.setL2_audits (x : L2Sector) : (s.setL2 x).audits = s.audits := rfl
@[simp] theorem State.setL2_arrayErrors (x : L2Sector) : (s.setL2 x).arrayErrors = s.arrayErrors := rfl
@[simp] theorem State.setL2_island (x : L2Sector) : (s.setL2 x).island = s.island := rfl
@[simp] theorem State.setL2_inbox (x : L2Sector) : (s.setL2 x).inbox = s.inbox := rfl
@[simp] theorem State.setL2_agenda (x : L2Sector) : (s.setL2 x).agenda = s.agenda := rfl
@[simp] theorem State.setL2_cur (x : L2Sector) : (s.setL2 x).cur = s.cur := rfl
@[simp] theorem State.setL2_tick (x : L2Sector) : (s.setL2 x).tick = s.tick := rfl
@[simp] theorem State.setL2_nextUid (x : L2Sector) : (s.setL2 x).nextUid = s.nextUid := rfl

@[simp] theorem State.bump_mem : (s.bump).mem = s.mem := rfl
@[simp] theorem State.bump_l2 : (s.bump).l2 = s.l2 := rfl
@[simp] theorem State.bump_syncLines : (s.bump).syncLines = s.syncLines := rfl
@[simp] theorem State.bump_cores : (s.bump).cores = s.cores := rfl
@[simp] theorem State.bump_teams : (s.bump).teams = s.teams := rfl
@[simp] theorem State.bump_ops : (s.bump).ops = s.ops := rfl
@[simp] theorem State.bump_launches : (s.bump).launches = s.launches := rfl
@[simp] theorem State.bump_tasks : (s.bump).tasks = s.tasks := rfl
@[simp] theorem State.bump_traces : (s.bump).traces = s.traces := rfl
@[simp] theorem State.bump_props : (s.bump).props = s.props := rfl
@[simp] theorem State.bump_claims : (s.bump).claims = s.claims := rfl
@[simp] theorem State.bump_backingBase : (s.bump).backingBase = s.backingBase := rfl
@[simp] theorem State.bump_backingEntries : (s.bump).backingEntries = s.backingEntries := rfl
@[simp] theorem State.bump_contexts : (s.bump).contexts = s.contexts := rfl
@[simp] theorem State.bump_queues : (s.bump).queues = s.queues := rfl
@[simp] theorem State.bump_rrLast : (s.bump).rrLast = s.rrLast := rfl
@[simp] theorem State.bump_launchedOnce : (s.bump).launchedOnce = s.launchedOnce := rfl
@[simp] theorem State.bump_hostCommands : (s.bump).hostCommands = s.hostCommands := rfl
@[simp] theorem State.bump_cmdDone : (s.bump).cmdDone = s.cmdDone := rfl
@[simp] theorem State.bump_cmdStat : (s.bump).cmdStat = s.cmdStat := rfl
@[simp] theorem State.bump_mc : (s.bump).mc = s.mc := rfl
@[simp] theorem State.bump_fq : (s.bump).fq = s.fq := rfl
@[simp] theorem State.bump_edCtx : (s.bump).edCtx = s.edCtx := rfl
@[simp] theorem State.bump_edCount : (s.bump).edCount = s.edCount := rfl
@[simp] theorem State.bump_msix : (s.bump).msix = s.msix := rfl
@[simp] theorem State.bump_hostReads : (s.bump).hostReads = s.hostReads := rfl
@[simp] theorem State.bump_apertures : (s.bump).apertures = s.apertures := rfl
@[simp] theorem State.bump_remotes : (s.bump).remotes = s.remotes := rfl
@[simp] theorem State.bump_unitFetched : (s.bump).unitFetched = s.unitFetched := rfl
@[simp] theorem State.bump_unitFailed : (s.bump).unitFailed = s.unitFailed := rfl
@[simp] theorem State.bump_unitWrites : (s.bump).unitWrites = s.unitWrites := rfl
@[simp] theorem State.bump_outPackets : (s.bump).outPackets = s.outPackets := rfl
@[simp] theorem State.bump_walks : (s.bump).walks = s.walks := rfl
@[simp] theorem State.bump_invals : (s.bump).invals = s.invals := rfl
@[simp] theorem State.bump_faults : (s.bump).faults = s.faults := rfl
@[simp] theorem State.bump_audits : (s.bump).audits = s.audits := rfl
@[simp] theorem State.bump_arrayErrors : (s.bump).arrayErrors = s.arrayErrors := rfl
@[simp] theorem State.bump_island : (s.bump).island = s.island := rfl
@[simp] theorem State.bump_inbox : (s.bump).inbox = s.inbox := rfl
@[simp] theorem State.bump_agenda : (s.bump).agenda = s.agenda := rfl
@[simp] theorem State.bump_cur : (s.bump).cur = s.cur := rfl
@[simp] theorem State.bump_tick : (s.bump).tick = s.tick := rfl

@[simp] theorem State.advance_mem : (s.advance).mem = s.mem := rfl
@[simp] theorem State.advance_l2 : (s.advance).l2 = s.l2 := rfl
@[simp] theorem State.advance_syncLines : (s.advance).syncLines = s.syncLines := rfl
@[simp] theorem State.advance_cores : (s.advance).cores = s.cores := rfl
@[simp] theorem State.advance_teams : (s.advance).teams = s.teams := rfl
@[simp] theorem State.advance_ops : (s.advance).ops = s.ops := rfl
@[simp] theorem State.advance_launches : (s.advance).launches = s.launches := rfl
@[simp] theorem State.advance_tasks : (s.advance).tasks = s.tasks := rfl
@[simp] theorem State.advance_traces : (s.advance).traces = s.traces := rfl
@[simp] theorem State.advance_props : (s.advance).props = s.props := rfl
@[simp] theorem State.advance_claims : (s.advance).claims = s.claims := rfl
@[simp] theorem State.advance_backingBase : (s.advance).backingBase = s.backingBase := rfl
@[simp] theorem State.advance_backingEntries : (s.advance).backingEntries = s.backingEntries := rfl
@[simp] theorem State.advance_contexts : (s.advance).contexts = s.contexts := rfl
@[simp] theorem State.advance_queues : (s.advance).queues = s.queues := rfl
@[simp] theorem State.advance_rrLast : (s.advance).rrLast = s.rrLast := rfl
@[simp] theorem State.advance_launchedOnce : (s.advance).launchedOnce = s.launchedOnce := rfl
@[simp] theorem State.advance_hostCommands : (s.advance).hostCommands = s.hostCommands := rfl
@[simp] theorem State.advance_cmdDone : (s.advance).cmdDone = s.cmdDone := rfl
@[simp] theorem State.advance_cmdStat : (s.advance).cmdStat = s.cmdStat := rfl
@[simp] theorem State.advance_mc : (s.advance).mc = s.mc := rfl
@[simp] theorem State.advance_fq : (s.advance).fq = s.fq := rfl
@[simp] theorem State.advance_edCtx : (s.advance).edCtx = s.edCtx := rfl
@[simp] theorem State.advance_edCount : (s.advance).edCount = s.edCount := rfl
@[simp] theorem State.advance_msix : (s.advance).msix = s.msix := rfl
@[simp] theorem State.advance_hostReads : (s.advance).hostReads = s.hostReads := rfl
@[simp] theorem State.advance_apertures : (s.advance).apertures = s.apertures := rfl
@[simp] theorem State.advance_remotes : (s.advance).remotes = s.remotes := rfl
@[simp] theorem State.advance_unitFetched : (s.advance).unitFetched = s.unitFetched := rfl
@[simp] theorem State.advance_unitFailed : (s.advance).unitFailed = s.unitFailed := rfl
@[simp] theorem State.advance_unitWrites : (s.advance).unitWrites = s.unitWrites := rfl
@[simp] theorem State.advance_outPackets : (s.advance).outPackets = s.outPackets := rfl
@[simp] theorem State.advance_walks : (s.advance).walks = s.walks := rfl
@[simp] theorem State.advance_invals : (s.advance).invals = s.invals := rfl
@[simp] theorem State.advance_faults : (s.advance).faults = s.faults := rfl
@[simp] theorem State.advance_audits : (s.advance).audits = s.audits := rfl
@[simp] theorem State.advance_arrayErrors : (s.advance).arrayErrors = s.arrayErrors := rfl
@[simp] theorem State.advance_island : (s.advance).island = s.island := rfl
@[simp] theorem State.advance_inbox : (s.advance).inbox = s.inbox := rfl
@[simp] theorem State.advance_agenda : (s.advance).agenda = s.agenda := rfl
@[simp] theorem State.advance_cur : (s.advance).cur = s.cur := rfl
@[simp] theorem State.advance_nextUid : (s.advance).nextUid = s.nextUid := rfl

@[simp] theorem State.leavePath_mem (c : Cursor) (l : Nat) : (s.leavePath c l).mem = s.mem := rfl
@[simp] theorem State.leavePath_l2 (c : Cursor) (l : Nat) : (s.leavePath c l).l2 = s.l2 := rfl
@[simp] theorem State.leavePath_syncLines (c : Cursor) (l : Nat) : (s.leavePath c l).syncLines = s.syncLines := rfl
@[simp] theorem State.leavePath_cores (c : Cursor) (l : Nat) : (s.leavePath c l).cores = s.cores := rfl
@[simp] theorem State.leavePath_ops (c : Cursor) (l : Nat) : (s.leavePath c l).ops = s.ops := rfl
@[simp] theorem State.leavePath_launches (c : Cursor) (l : Nat) : (s.leavePath c l).launches = s.launches := rfl
@[simp] theorem State.leavePath_tasks (c : Cursor) (l : Nat) : (s.leavePath c l).tasks = s.tasks := rfl
@[simp] theorem State.leavePath_traces (c : Cursor) (l : Nat) : (s.leavePath c l).traces = s.traces := rfl
@[simp] theorem State.leavePath_props (c : Cursor) (l : Nat) : (s.leavePath c l).props = s.props := rfl
@[simp] theorem State.leavePath_claims (c : Cursor) (l : Nat) : (s.leavePath c l).claims = s.claims := rfl
@[simp] theorem State.leavePath_backingBase (c : Cursor) (l : Nat) : (s.leavePath c l).backingBase = s.backingBase := rfl
@[simp] theorem State.leavePath_backingEntries (c : Cursor) (l : Nat) : (s.leavePath c l).backingEntries = s.backingEntries := rfl
@[simp] theorem State.leavePath_contexts (c : Cursor) (l : Nat) : (s.leavePath c l).contexts = s.contexts := rfl
@[simp] theorem State.leavePath_queues (c : Cursor) (l : Nat) : (s.leavePath c l).queues = s.queues := rfl
@[simp] theorem State.leavePath_rrLast (c : Cursor) (l : Nat) : (s.leavePath c l).rrLast = s.rrLast := rfl
@[simp] theorem State.leavePath_launchedOnce (c : Cursor) (l : Nat) : (s.leavePath c l).launchedOnce = s.launchedOnce := rfl
@[simp] theorem State.leavePath_hostCommands (c : Cursor) (l : Nat) : (s.leavePath c l).hostCommands = s.hostCommands := rfl
@[simp] theorem State.leavePath_cmdDone (c : Cursor) (l : Nat) : (s.leavePath c l).cmdDone = s.cmdDone := rfl
@[simp] theorem State.leavePath_cmdStat (c : Cursor) (l : Nat) : (s.leavePath c l).cmdStat = s.cmdStat := rfl
@[simp] theorem State.leavePath_mc (c : Cursor) (l : Nat) : (s.leavePath c l).mc = s.mc := rfl
@[simp] theorem State.leavePath_fq (c : Cursor) (l : Nat) : (s.leavePath c l).fq = s.fq := rfl
@[simp] theorem State.leavePath_edCtx (c : Cursor) (l : Nat) : (s.leavePath c l).edCtx = s.edCtx := rfl
@[simp] theorem State.leavePath_edCount (c : Cursor) (l : Nat) : (s.leavePath c l).edCount = s.edCount := rfl
@[simp] theorem State.leavePath_msix (c : Cursor) (l : Nat) : (s.leavePath c l).msix = s.msix := rfl
@[simp] theorem State.leavePath_hostReads (c : Cursor) (l : Nat) : (s.leavePath c l).hostReads = s.hostReads := rfl
@[simp] theorem State.leavePath_apertures (c : Cursor) (l : Nat) : (s.leavePath c l).apertures = s.apertures := rfl
@[simp] theorem State.leavePath_remotes (c : Cursor) (l : Nat) : (s.leavePath c l).remotes = s.remotes := rfl
@[simp] theorem State.leavePath_unitFetched (c : Cursor) (l : Nat) : (s.leavePath c l).unitFetched = s.unitFetched := rfl
@[simp] theorem State.leavePath_unitFailed (c : Cursor) (l : Nat) : (s.leavePath c l).unitFailed = s.unitFailed := rfl
@[simp] theorem State.leavePath_unitWrites (c : Cursor) (l : Nat) : (s.leavePath c l).unitWrites = s.unitWrites := rfl
@[simp] theorem State.leavePath_outPackets (c : Cursor) (l : Nat) : (s.leavePath c l).outPackets = s.outPackets := rfl
@[simp] theorem State.leavePath_walks (c : Cursor) (l : Nat) : (s.leavePath c l).walks = s.walks := rfl
@[simp] theorem State.leavePath_invals (c : Cursor) (l : Nat) : (s.leavePath c l).invals = s.invals := rfl
@[simp] theorem State.leavePath_faults (c : Cursor) (l : Nat) : (s.leavePath c l).faults = s.faults := rfl
@[simp] theorem State.leavePath_audits (c : Cursor) (l : Nat) : (s.leavePath c l).audits = s.audits := rfl
@[simp] theorem State.leavePath_arrayErrors (c : Cursor) (l : Nat) : (s.leavePath c l).arrayErrors = s.arrayErrors := rfl
@[simp] theorem State.leavePath_island (c : Cursor) (l : Nat) : (s.leavePath c l).island = s.island := rfl
@[simp] theorem State.leavePath_inbox (c : Cursor) (l : Nat) : (s.leavePath c l).inbox = s.inbox := rfl
@[simp] theorem State.leavePath_agenda (c : Cursor) (l : Nat) : (s.leavePath c l).agenda = s.agenda := rfl
@[simp] theorem State.leavePath_cur (c : Cursor) (l : Nat) : (s.leavePath c l).cur = s.cur := rfl
@[simp] theorem State.leavePath_tick (c : Cursor) (l : Nat) : (s.leavePath c l).tick = s.tick := rfl
@[simp] theorem State.leavePath_nextUid (c : Cursor) (l : Nat) : (s.leavePath c l).nextUid = s.nextUid := rfl

@[simp] theorem State.hold_mem (i : Issue) : (s.hold i).mem = s.mem := rfl
@[simp] theorem State.hold_l2 (i : Issue) : (s.hold i).l2 = s.l2 := rfl
@[simp] theorem State.hold_syncLines (i : Issue) : (s.hold i).syncLines = s.syncLines := rfl
@[simp] theorem State.hold_cores (i : Issue) : (s.hold i).cores = s.cores := rfl
@[simp] theorem State.hold_ops (i : Issue) : (s.hold i).ops = s.ops := rfl
@[simp] theorem State.hold_launches (i : Issue) : (s.hold i).launches = s.launches := rfl
@[simp] theorem State.hold_tasks (i : Issue) : (s.hold i).tasks = s.tasks := rfl
@[simp] theorem State.hold_traces (i : Issue) : (s.hold i).traces = s.traces := rfl
@[simp] theorem State.hold_props (i : Issue) : (s.hold i).props = s.props := rfl
@[simp] theorem State.hold_claims (i : Issue) : (s.hold i).claims = s.claims := rfl
@[simp] theorem State.hold_backingBase (i : Issue) : (s.hold i).backingBase = s.backingBase := rfl
@[simp] theorem State.hold_backingEntries (i : Issue) : (s.hold i).backingEntries = s.backingEntries := rfl
@[simp] theorem State.hold_contexts (i : Issue) : (s.hold i).contexts = s.contexts := rfl
@[simp] theorem State.hold_queues (i : Issue) : (s.hold i).queues = s.queues := rfl
@[simp] theorem State.hold_rrLast (i : Issue) : (s.hold i).rrLast = s.rrLast := rfl
@[simp] theorem State.hold_launchedOnce (i : Issue) : (s.hold i).launchedOnce = s.launchedOnce := rfl
@[simp] theorem State.hold_hostCommands (i : Issue) : (s.hold i).hostCommands = s.hostCommands := rfl
@[simp] theorem State.hold_cmdDone (i : Issue) : (s.hold i).cmdDone = s.cmdDone := rfl
@[simp] theorem State.hold_cmdStat (i : Issue) : (s.hold i).cmdStat = s.cmdStat := rfl
@[simp] theorem State.hold_mc (i : Issue) : (s.hold i).mc = s.mc := rfl
@[simp] theorem State.hold_fq (i : Issue) : (s.hold i).fq = s.fq := rfl
@[simp] theorem State.hold_edCtx (i : Issue) : (s.hold i).edCtx = s.edCtx := rfl
@[simp] theorem State.hold_edCount (i : Issue) : (s.hold i).edCount = s.edCount := rfl
@[simp] theorem State.hold_msix (i : Issue) : (s.hold i).msix = s.msix := rfl
@[simp] theorem State.hold_hostReads (i : Issue) : (s.hold i).hostReads = s.hostReads := rfl
@[simp] theorem State.hold_apertures (i : Issue) : (s.hold i).apertures = s.apertures := rfl
@[simp] theorem State.hold_remotes (i : Issue) : (s.hold i).remotes = s.remotes := rfl
@[simp] theorem State.hold_unitFetched (i : Issue) : (s.hold i).unitFetched = s.unitFetched := rfl
@[simp] theorem State.hold_unitFailed (i : Issue) : (s.hold i).unitFailed = s.unitFailed := rfl
@[simp] theorem State.hold_unitWrites (i : Issue) : (s.hold i).unitWrites = s.unitWrites := rfl
@[simp] theorem State.hold_outPackets (i : Issue) : (s.hold i).outPackets = s.outPackets := rfl
@[simp] theorem State.hold_walks (i : Issue) : (s.hold i).walks = s.walks := rfl
@[simp] theorem State.hold_invals (i : Issue) : (s.hold i).invals = s.invals := rfl
@[simp] theorem State.hold_faults (i : Issue) : (s.hold i).faults = s.faults := rfl
@[simp] theorem State.hold_audits (i : Issue) : (s.hold i).audits = s.audits := rfl
@[simp] theorem State.hold_arrayErrors (i : Issue) : (s.hold i).arrayErrors = s.arrayErrors := rfl
@[simp] theorem State.hold_island (i : Issue) : (s.hold i).island = s.island := rfl
@[simp] theorem State.hold_inbox (i : Issue) : (s.hold i).inbox = s.inbox := rfl
@[simp] theorem State.hold_agenda (i : Issue) : (s.hold i).agenda = s.agenda := rfl
@[simp] theorem State.hold_cur (i : Issue) : (s.hold i).cur = s.cur := rfl
@[simp] theorem State.hold_tick (i : Issue) : (s.hold i).tick = s.tick := rfl
@[simp] theorem State.hold_nextUid (i : Issue) : (s.hold i).nextUid = s.nextUid := rfl

end Sys2Proof.Machine
end

