-- ==== Sys2Proof/Laws/Find.lean ====
section
/-! SUPPORT. Finding a team, gang, thread or core after an update of the state. -/

namespace Sys2Proof.Machine

/-! ## Teams -/

/-- A map over a list that keeps the names finds what it found, changed. -/
theorem find_map_uid {α : Type} (key : α → Nat) (f : α → α) (hf : ∀ a, key (f a) = key a) (u : Nat) (l : List α) :
    (l.map f).find? (fun a => key a == u) = (l.find? fun a => key a == u).map f := by
  induction l with
  | nil => rfl
  | cons a l ih =>
    simp only [List.map_cons, List.find?_cons, hf]
    cases key a == u <;> simp [ih]

theorem State.team?_modTeam (s : State) (u v : Nat) (f : Team → Team) (hf : ∀ t, (f t).uid = t.uid) :
    (s.modTeam u f).team? v = (s.team? v).map fun t => if v = u then f t else t := by
  unfold State.team? State.modTeam
  simp only
  rw [find_map_uid Team.uid _ (by intro a; split <;> simp [hf])]
  cases h : s.teams.find? fun t => t.uid == v with
  | none => rfl
  | some t =>
    have hv : t.uid = v := by simpa using List.find?_some h
    simp only [Option.map_some, beq_iff_eq, hv]

@[simp] theorem Team.modGang_uid (t : Team) (g : Nat) (f : Gang → Gang) : (t.modGang g f).uid = t.uid := rfl

theorem State.team?_modGang (s : State) (u g v : Nat) (f : Gang → Gang) :
    (s.modGang u g f).team? v = (s.team? v).map fun t => if v = u then t.modGang g f else t :=
  s.team?_modTeam u v _ fun _ => rfl

/-! ## Gangs and threads -/

theorem State.gang?_modTeam (s : State) (u v h : Nat) (f : Team → Team) (hf : ∀ t, (f t).uid = t.uid) :
    (s.modTeam u f).gang? v h = (s.team? v).bind fun t => (if v = u then f t else t).gangs[h]? := by
  unfold State.gang?
  rw [s.team?_modTeam u v f hf]
  cases s.team? v <;> rfl

theorem State.gang?_modGang (s : State) (u g v h : Nat) (f : Gang → Gang) :
    (s.modGang u g f).gang? v h = (s.gang? v h).map fun x => if v = u ∧ h = g then f x else x := by
  unfold State.gang?
  rw [s.team?_modGang]
  cases s.team? v with
  | none => rfl
  | some t =>
    simp only [Option.map_some, Option.bind_some]
    by_cases hv : v = u
    · simp only [hv, if_true, Team.modGang, List.getElem?_modify, true_and]
      by_cases hg : g = h
      · simp [hg]
      · simp [hg, Ne.symm hg]
    · simp [hv]

theorem State.thread?_modGang (s : State) (u g v h l : Nat) (f : Gang → Gang) :
    (s.modGang u g f).thread? v h l
      = (s.gang? v h).bind fun x => (if v = u ∧ h = g then f x else x).threads[l]? := by
  unfold State.thread?
  rw [s.gang?_modGang]
  cases s.gang? v h <;> rfl

/-- A change of a gang that acts on each thread by itself. -/
theorem State.thread?_modGang_of (s : State) (u g v h l : Nat) (f : Gang → Gang) (k : Nat → Thread → Thread)
    (hf : ∀ x l, (f x).threads[l]? = x.threads[l]?.map (k l)) :
    (s.modGang u g f).thread? v h l = (s.thread? v h l).map fun th => if v = u ∧ h = g then k l th else th := by
  rw [s.thread?_modGang]
  unfold State.thread?
  cases s.gang? v h with
  | none => rfl
  | some x =>
    simp only [Option.bind_some]
    by_cases hv : v = u ∧ h = g
    · simp [hv, hf]
    · simp [hv]

theorem Gang.threads_mapLanes (g : Gang) (ls : List Nat) (f : Nat → Thread → Thread) (l : Nat) :
    (g.mapLanes ls f).threads[l]? = g.threads[l]?.map fun t => if ls.contains l then f l t else t := by
  simp [Gang.mapLanes, List.getElem?_mapIdx]

@[simp] theorem Gang.mapLanes_masks (g : Gang) (ls : List Nat) (f : Nat → Thread → Thread) :
    (g.mapLanes ls f).masks = g.masks := rfl

@[simp] theorem Gang.modThread_masks (g : Gang) (l : Nat) (f : Thread → Thread) : (g.modThread l f).masks = g.masks := rfl

@[simp] theorem Gang.modPath_masks (g : Gang) (p : Nat) (f : Path → Path) : (g.modPath p f).masks = g.masks := rfl

@[simp] theorem Gang.dropPath_masks (g : Gang) (p : Nat) : (g.dropPath p).masks = g.masks := rfl

@[simp] theorem Gang.modPath_threads (g : Gang) (p : Nat) (f : Path → Path) : (g.modPath p f).threads = g.threads := rfl

@[simp] theorem Gang.dropPath_threads (g : Gang) (p : Nat) : (g.dropPath p).threads = g.threads := rfl

theorem State.thread?_modThread (s : State) (u g l v h k : Nat) (f : Thread → Thread) :
    (s.modThread u g l f).thread? v h k = (s.thread? v h k).map fun th => if v = u ∧ h = g ∧ k = l then f th else th := by
  unfold State.modThread
  rw [s.thread?_modGang_of u g v h k _ (fun j th => if j = l then f th else th)]
  · cases s.thread? v h k <;> simp only [Option.map_none, Option.map_some, Option.some.injEq]
    by_cases h1 : v = u ∧ h = g <;> by_cases h2 : k = l <;> simp [h1, h2]
  · intro x j
    simp only [Gang.modThread, List.getElem?_modify]
    by_cases hj : l = j
    · subst hj; simp
    · simp [hj, Ne.symm hj]

/-! ## Cores -/

theorem lookupD_insertAt {α : Type} (l : List (Nat × α)) (k j : Nat) (v d : α) :
    lookupD (insertAt l k v) j d = if j = k then v else lookupD l j d := by
  induction l with
  | nil =>
    simp only [insertAt, lookupD, List.find?_cons, List.find?_nil]
    by_cases h : j = k
    · simp [h]
    · have : (k == j) = false := by simpa using Ne.symm h
      simp [h, this]
  | cons e es ih =>
    simp only [insertAt]
    by_cases hk : e.1 = k
    · simp only [hk, beq_self_eq_true, if_true]
      unfold lookupD
      simp only [List.find?_cons, hk]
      by_cases h : j = k
      · simp [h]
      · have : (k == j) = false := by simpa using Ne.symm h
        simp [h, this]
    · have hk' : (e.1 == k) = false := by simpa using hk
      simp only [hk', Bool.false_eq_true, if_false]
      unfold lookupD at ih ⊢
      simp only [List.find?_cons]
      by_cases he : e.1 = j
      · have : j ≠ k := by rintro rfl; exact hk he
        simp [he, this]
      · have he' : (e.1 == j) = false := by simpa using he
        simp only [he']
        exact ih

theorem State.core_modCore (s : State) (c d : Nat) (f : Core → Core) :
    (s.modCore c f).core d = if d = c then f (s.core c) else s.core d := by
  unfold State.core State.modCore
  simp only
  rw [lookupD_insertAt]
  rfl

end Sys2Proof.Machine
end

