-- ==== Sys2Proof/Laws/Frames.lean ====
section
/-! SUPPORT. The frame of the operations that begin and end a word: they change no register of a thread, no memory and
nothing that a team holds. -/

namespace Sys2Proof.Machine

/-! ## The relation -/

/-- A thread's registers are as before, and unless it waits at a REWARP so are its saved registers. -/
def Thread.Quiet (a b : Thread) : Prop :=
  b.regs = a.regs ∧ (a.mayConverge = false → b.trapRegs = a.trapRegs ∧ b.mayConverge = false)

theorem Thread.Quiet.refl (a : Thread) : a.Quiet a := ⟨rfl, fun h => ⟨rfl, h⟩⟩

theorem Thread.Quiet.trans {a b c : Thread} (h : a.Quiet b) (k : b.Quiet c) : a.Quiet c :=
  ⟨k.1.trans h.1, fun m => ⟨(k.2 (h.2 m).2).1.trans (h.2 m).1, (k.2 (h.2 m).2).2⟩⟩

/-- Two threads that one place of a state holds before and after. -/
def QuietAt : Option Thread → Option Thread → Prop
  | none, none => True
  | some a, some b => a.Quiet b
  | _, _ => False

theorem QuietAt.refl (a : Option Thread) : QuietAt a a := by
  cases a with
  | none => trivial
  | some a => exact Thread.Quiet.refl a

theorem QuietAt.trans {a b c : Option Thread} (h : QuietAt a b) (k : QuietAt b c) : QuietAt a c := by
  cases a <;> cases b <;> cases c <;> first | trivial | exact Thread.Quiet.trans h k

/-- Nothing that a program sees has changed. -/
structure Frame (s t : State) : Prop where
  mem : t.mem = s.mem
  l2 : t.l2 = s.l2
  holdings : SameHoldings s t
  masks : SameMasks s t
  audit : SameAudit s t
  threads : ∀ u g l, QuietAt (s.thread? u g l) (t.thread? u g l)

theorem Frame.refl (s : State) : Frame s s :=
  ⟨rfl, rfl, fun _ => rfl, fun _ _ => rfl, fun _ => rfl, fun _ _ _ => QuietAt.refl _⟩

theorem Frame.trans {s t r : State} (h : Frame s t) (k : Frame t r) : Frame s r :=
  ⟨k.mem.trans h.mem, k.l2.trans h.l2, fun u => (k.holdings u).trans (h.holdings u),
    fun u g => (k.masks u g).trans (h.masks u g), fun c => (k.audit c).trans (h.audit c),
    fun u g l => (h.threads u g l).trans (k.threads u g l)⟩

theorem Frame.sameRegs {s t : State} (h : Frame s t) : SameRegs s t := by
  intro u g l
  have := h.threads u g l
  revert this
  cases s.thread? u g l <;> cases t.thread? u g l <;> intro this
  · rfl
  · exact False.elim this
  · exact False.elim this
  · exact congrArg some this.1

theorem Frame.kept {s t : State} (h : Frame s t) : Kept s t := by
  refine ⟨⟨h.mem, h.l2⟩, h.holdings, h.masks, h.audit, ?_⟩
  intro u g l th th' hs ht hm
  have := h.threads u g l
  rw [hs, ht] at this
  exact (this.2 hm).1

/-! ## Updates of a gang and a team -/

theorem sameHoldings_modGang (s : State) (u g : Nat) (f : Gang → Gang) : SameHoldings s (s.modGang u g f) := by
  intro v
  rw [s.team?_modGang]
  cases s.team? v with
  | none => rfl
  | some t => by_cases h : v = u <;> simp [h, Team.modGang, Team.holdings]

/-- An update of a gang that leaves masks and registers alone. -/
theorem Frame.modGang (s : State) (u g : Nat) (f : Gang → Gang) (hm : ∀ x : Gang, (f x).masks = x.masks)
    (ht : ∀ (x : Gang) (l : Nat), QuietAt x.threads[l]? (f x).threads[l]?) : Frame s (s.modGang u g f) := by
  refine ⟨rfl, rfl, sameHoldings_modGang s u g f, ?_, fun _ => rfl, ?_⟩
  · intro v h
    rw [s.gang?_modGang]
    cases s.gang? v h with
    | none => rfl
    | some x =>
      by_cases hh : v = u ∧ h = g <;> simp [hh, hm]
  · intro v h l
    rw [s.thread?_modGang]
    unfold State.thread?
    cases s.gang? v h with
    | none => exact trivial
    | some x =>
      simp only [Option.bind_some]
      split
      · exact ht x l
      · exact QuietAt.refl _

/-- An update that leaves the threads of a gang as they are. -/
theorem Frame.modGang_same (s : State) (u g : Nat) (f : Gang → Gang) (hm : ∀ x : Gang, (f x).masks = x.masks)
    (ht : ∀ x : Gang, (f x).threads = x.threads) : Frame s (s.modGang u g f) :=
  Frame.modGang s u g f hm fun x l => by rw [ht x]; exact QuietAt.refl _

theorem QuietAt.mapLanes (g : Gang) (ls : List Nat) (f : Nat → Thread → Thread) (hf : ∀ (l : Nat) (t : Thread), t.Quiet (f l t)) (l : Nat) :
    QuietAt g.threads[l]? (g.mapLanes ls f).threads[l]? := by
  rw [g.threads_mapLanes]
  cases g.threads[l]? with
  | none => trivial
  | some t =>
    simp only [Option.map_some]
    split
    · exact hf l t
    · exact Thread.Quiet.refl t

theorem QuietAt.map (xs : List Thread) (f : Thread → Thread) (hf : ∀ t : Thread, t.Quiet (f t)) (l : Nat) :
    QuietAt xs[l]? (xs.map f)[l]? := by
  rw [List.getElem?_map]
  cases xs[l]? with
  | none => trivial
  | some t => exact hf t

theorem Frame.modPath (s : State) (c : Cursor) (f : Path → Path) : Frame s (s.modPath c f) :=
  Frame.modGang_same s _ _ _ (fun _ => rfl) fun _ => rfl

theorem Frame.modThread (s : State) (u g l : Nat) (f : Thread → Thread) (hf : ∀ t : Thread, t.Quiet (f t)) :
    Frame s (s.modThread u g l f) := by
  refine Frame.modGang s u g _ (fun _ => rfl) fun x k => ?_
  simp only [Gang.modThread, List.getElem?_modify]
  cases x.threads[k]? with
  | none => trivial
  | some t =>
    by_cases h : l = k
    · simpa [h, QuietAt] using hf t
    · simpa [h, QuietAt] using Thread.Quiet.refl t

/-- An update of a team that leaves its gangs and holdings alone. -/
theorem Frame.modTeam (s : State) (u : Nat) (f : Team → Team) (hu : ∀ t, (f t).uid = t.uid)
    (hh : ∀ t, (f t).holdings = t.holdings) (hg : ∀ t, (f t).gangs = t.gangs) : Frame s (s.modTeam u f) := by
  have key : ∀ v h, (s.modTeam u f).gang? v h = s.gang? v h := by
    intro v h
    rw [s.gang?_modTeam u v h f hu]
    unfold State.gang?
    cases s.team? v with
    | none => rfl
    | some t => simp only [Option.bind_some]; split <;> simp [hg]
  refine ⟨rfl, rfl, ?_, ?_, fun _ => rfl, ?_⟩
  · intro v
    rw [s.team?_modTeam u v f hu]
    cases s.team? v with
    | none => rfl
    | some t => by_cases h : v = u <;> simp [h, hh]
  · intro v h; rw [key]
  · intro v h l
    unfold State.thread?
    rw [key]
    exact QuietAt.refl _

theorem Frame.modCore (s : State) (c : Nat) (f : Core → Core) (hf : ∀ k, (f k).auditCtl = k.auditCtl) :
    Frame s (s.modCore c f) := by
  refine ⟨rfl, rfl, fun _ => rfl, fun _ _ => rfl, ?_, fun _ _ _ => QuietAt.refl _⟩
  intro d
  rw [s.core_modCore]
  split
  · next h => rw [hf, h]
  · rfl

/-- A step that leaves teams, cores and memory alone. -/
theorem Frame.of_eq {s t : State} (hm : t.mem = s.mem) (hl : t.l2 = s.l2) (ht : t.teams = s.teams) (hc : t.cores = s.cores) :
    Frame s t := by
  have e1 : ∀ u, t.team? u = s.team? u := fun u => by unfold State.team?; rw [ht]
  have e2 : ∀ u g, t.gang? u g = s.gang? u g := fun u g => by unfold State.gang?; rw [e1]
  have e3 : ∀ c, t.core c = s.core c := fun c => by unfold State.core; rw [hc]
  refine ⟨hm, hl, fun u => by rw [e1], fun u g => by rw [e2], fun c => by rw [e3], fun u g l => ?_⟩
  have : t.thread? u g l = s.thread? u g l := by unfold State.thread?; rw [e2]
  rw [this]
  exact QuietAt.refl _

/-- A fold of steps that each leave the frame. -/
theorem Frame.foldl {α : Type} (f : State → α → State) (hf : ∀ s a, Frame s (f s a)) (xs : List α) (s : State) :
    Frame s (xs.foldl f s) := by
  induction xs generalizing s with
  | nil => exact Frame.refl s
  | cons a xs ih => exact (hf s a).trans (ih _)

/-- Either branch of a condition. -/
theorem Frame.ite {s t r : State} {p : Prop} [Decidable p] (ht : Frame s t) (hr : Frame s r) :
    Frame s (if p then t else r) := by split <;> assumption

/-! ## Beginning a word -/

theorem Thread.quiet_countPrefixes (t : Thread) (a : W64) (n : Nat) : t.Quiet (t.countPrefixes a n) := by
  unfold Thread.countPrefixes
  split <;> exact ⟨rfl, fun h => ⟨rfl, h⟩⟩

theorem Frame.gangBeginWord (s : State) (u g : Nat) (p : Path) : Frame s (s.modGang u g fun x => x.beginWord p) := by
  refine Frame.modGang s u g _ (fun x => ?_) fun x l => ?_
  · unfold Gang.beginWord; split <;> rfl
  · unfold Gang.beginWord
    split
    · exact QuietAt.refl _
    · exact QuietAt.mapLanes _ _ _ (fun _ t => t.quiet_countPrefixes _ _) l

theorem Frame.auditLog (s : State) (u : Nat) (e : AuditEntry) : Frame s (s.auditLog u e) :=
  Frame.modTeam s u _ (fun _ => rfl) (fun _ => rfl) fun _ => rfl

theorem Frame.excuse (s : State) (u : Nat) : Frame s (s.modTeam u Team.excuse) :=
  Frame.modTeam s u _ (fun _ => rfl) (fun _ => rfl) fun _ => rfl

/-! ## Killing a team, and ending a replay -/

theorem Thread.quiet_withdraw (t : Thread) : t.Quiet t.withdraw :=
  ⟨rfl, fun _ => ⟨rfl, rfl⟩⟩

theorem Gang.withdraw_threads (g : Gang) : g.withdraw.threads = g.threads.map Thread.withdraw := rfl

theorem Gang.withdraw_masks (g : Gang) : g.withdraw.masks = g.masks := rfl

/-- A change of a team's gangs that leaves their masks and their threads' registers is a frame. -/
theorem Frame.mapGangs (s : State) (u : Nat) (f : Team → Team) (k : Gang → Gang) (q : Thread → Thread)
    (fu : ∀ t, (f t).uid = t.uid) (fh : ∀ t, (f t).holdings = t.holdings) (fg : ∀ t, (f t).gangs = t.gangs.map k)
    (km : ∀ g, (k g).masks = g.masks) (kt : ∀ g, (k g).threads = g.threads.map q) (qq : ∀ t : Thread, t.Quiet (q t)) :
    Frame s (s.modTeam u f) := by
  have kg : ∀ v h, (s.modTeam u f).gang? v h = (s.gang? v h).map fun x => if v = u then k x else x := by
    intro v h
    rw [s.gang?_modTeam u v h f fu]
    unfold State.gang?
    cases s.team? v with
    | none => rfl
    | some t =>
      simp only [Option.bind_some]
      by_cases hv : v = u <;> simp [hv, fg]
  refine ⟨rfl, rfl, ?_, ?_, fun _ => rfl, ?_⟩
  · intro v
    rw [s.team?_modTeam u v f fu]
    cases s.team? v with
    | none => rfl
    | some t => by_cases h : v = u <;> simp [h, fh]
  · intro v h
    rw [kg]
    cases s.gang? v h with
    | none => rfl
    | some x => by_cases hv : v = u <;> simp [hv, km]
  · intro v h l
    unfold State.thread?
    rw [kg]
    cases s.gang? v h with
    | none => trivial
    | some x =>
      simp only [Option.map_some, Option.bind_some]
      by_cases hv : v = u
      · simp only [hv, if_true, kt]
        exact QuietAt.map _ _ qq l
      · simp only [hv, if_false]
        exact QuietAt.refl _

theorem Thread.quiet_halt (t : Thread) : t.Quiet { t.withdraw with exited := true } := ⟨rfl, fun _ => ⟨rfl, rfl⟩⟩

theorem Gang.halt_threads (g : Gang) : g.halt.threads = g.threads.map fun t => { t.withdraw with exited := true } := by
  simp only [Gang.halt, Gang.withdraw_threads, List.map_map]
  rfl

theorem Frame.endReplay (s : State) (u : Nat) (lost : Bool) : Frame s (s.endReplay u lost) := by
  unfold State.endReplay
  split
  · exact Frame.refl s
  · exact (Frame.mapGangs s u (fun t => { t with gangs := t.gangs.map Gang.halt, commands := [] }) Gang.halt _
      (fun _ => rfl) (fun _ => rfl) (fun _ => rfl) (fun _ => rfl)
      Gang.halt_threads Thread.quiet_halt).trans (Frame.of_eq rfl rfl rfl rfl)

theorem Frame.killTeam (s : State) (u : Nat) (k : Kill) : Frame s (s.killTeam u k) := by
  unfold State.killTeam
  cases h : s.team? u with
  | none => exact Frame.refl s
  | some t =>
    dsimp only
    split
    · exact Frame.refl s
    · split
      · exact Frame.endReplay s u true
      · exact (Frame.mapGangs s u
          (fun t => { t with
            state := .killed, kill := some k, gangs := t.gangs.map Gang.withdraw, ineligible := true, audit := none })
          Gang.withdraw Thread.withdraw (fun _ => rfl) (fun _ => rfl) (fun _ => rfl) (fun _ => rfl) (fun _ => rfl)
          Thread.quiet_withdraw).trans (Frame.of_eq rfl rfl rfl rfl)

/-! ## Beginning a word -/

theorem Frame.takeEntry (s : State) (u : Nat) (want : AuditEntry → Bool) : Frame s (s.takeEntry u want).1 := by
  unfold State.takeEntry
  split
  · exact Frame.refl s
  · split
    · exact Frame.of_eq rfl rfl rfl rfl
    · exact Frame.refl s

theorem Frame.of_takeEntry {s t : State} {u : Nat} {want : AuditEntry → Bool} {e : Option AuditEntry}
    (h : s.takeEntry u want = (t, e)) : Frame s t := by
  have k := Frame.takeEntry s u want
  rw [h] at k
  exact k

theorem Frame.receive (s : State) (i : Issue) (l : Nat) (v : W64) : Frame s (s.receive i l v).1 := by
  unfold State.receive
  split
  · exact Frame.auditLog s _ _
  · dsimp only
    split
    · next h => exact Frame.of_takeEntry h
    · next h => exact (Frame.of_takeEntry h).trans (Frame.endReplay _ _ _)

theorem Frame.logCore (s : State) (i : Issue) (n : Nat) : Frame s (s.logCore i n) := by
  unfold State.logCore
  split
  · exact Frame.refl s
  · exact Frame.foldl _ (fun s l => Frame.foldl _ (fun s _ => Frame.receive s _ _ _) _ s) _ s

theorem Frame.beginWord (s : State) (i : Issue) : Frame s (s.beginWord i) := by
  refine (Frame.gangBeginWord s i.cursor.team i.cursor.gang i.path).trans ?_
  unfold State.beginWord
  dsimp only
  cases decode i.word with
  | error e => exact Frame.refl _
  | ok w =>
    dsimp only
    split
    · exact Frame.excuse _ _
    · exact Frame.logCore _ _ _

/-! ## Taking a trap -/

theorem Frame.emptyLatch (s : State) (c : Nat) (k : Option Nat) : Frame s (s.emptyLatch c k) := by
  unfold State.emptyLatch
  cases k with
  | none => exact Frame.refl s
  | some k => exact Frame.modCore s c _ fun _ => rfl

theorem Frame.emptyLatchOf (s : State) (u g : Nat) : Frame s (s.emptyLatchOf u g) := by
  unfold State.emptyLatchOf
  split
  · exact Frame.emptyLatch _ _ _
  · exact Frame.refl s

theorem Frame.abortTx (s : State) (u g c : Nat) : Frame s (s.modGang u g fun x => x.abortTx c) :=
  Frame.modGang_same s u g _ (fun _ => rfl) fun _ => rfl

theorem State.modThread_modThread (s : State) (u g l : Nat) (a b : Thread → Thread) :
    (s.modThread u g l a).modThread u g l b = s.modThread u g l fun t => b (a t) := by
  simp only [State.modThread, State.modGang, State.modTeam, List.map_map]
  congr 1
  refine List.map_congr_left fun t _ => ?_
  simp only [Function.comp]
  by_cases ht : (t.uid == u) = true
  · simp [ht, Team.modGang, Gang.modThread]
    rw [List.modify_modify_eq]
    congr 1
    funext y
    simp [Function.comp, List.modify_modify_eq]
    rfl
  · simp [ht]

theorem Thread.enterTrap_regs (t : Thread) (site : TrapSite) (tr : Trap) : (t.enterTrap site tr).regs = t.regs := rfl

/-- Taking a trap kills the team, or enters the handler; beyond the entry changes of the thread, the frame holds. -/
theorem State.trapEntry_frame (s : State) (u g l : Nat) (site : TrapSite) (tr : Trap) (m : W32) :
    Frame s (s.trapEntry u g l site tr m)
      ∨ Frame (s.modThread u g l fun t => t.enterTrap site tr) (s.trapEntry u g l site tr m) := by
  unfold State.trapEntry
  cases s.gang? u g with
  | none => exact .inl (Frame.refl s)
  | some x =>
    dsimp only
    cases x.threads[l]? with
    | none => exact .inl (Frame.refl s)
    | some t =>
      dsimp only
      generalize s.modThread u g l (fun t => t.enterTrap site tr) = r
      split
      · exact .inl (Frame.endReplay _ _ _)
      split
      · exact .inl (Frame.killTeam _ _ _)
      split
      · exact .inl (Frame.killTeam _ _ _)
      split
      · exact .inl (Frame.killTeam _ _ _)
      right
      have h1 := Frame.excuse r u
      have h2 : Frame r (if x.inTx l = true then (r.modTeam u Team.excuse).modGang u g fun y => y.abortTx 6
          else r.modTeam u Team.excuse) := by
        split
        · exact h1.trans (Frame.abortTx _ u g 6)
        · exact h1
      split
      · exact h2.trans (Frame.emptyLatchOf _ _ _)
      · exact h2

/-- CONVERGE in a thread that waits at a REWARP leaves every other thread's registers, and its own but for the saved
ones. -/
theorem Frame.convergeTrap (s : State) (u g l : Nat) : Frame s (s.convergeTrap u g l) := by
  unfold State.convergeTrap
  cases hth : s.thread? u g l with
  | none => exact Frame.refl s
  | some th =>
    simp only [Option.map_some]
    split
    · next k n pc w hd ls hb =>
      have hb' : th.blocked = .rewarp k n pc w hd ls := by simpa using hb
      have hm : th.mayConverge = true := by simp [Thread.mayConverge, hb']
      have quietAll : ∀ f : Thread → Thread, (∀ t, (f t).regs = t.regs) → Frame s (s.modThread u g l f) := by
        intro f hf
        refine ⟨rfl, rfl, sameHoldings_modGang s u g _, ?_, fun _ => rfl, ?_⟩
        · intro v h
          unfold State.modThread
          rw [s.gang?_modGang]
          cases s.gang? v h with
          | none => rfl
          | some x => by_cases hh : v = u ∧ h = g <;> simp [hh]
        · intro v h j
          rw [s.thread?_modThread]
          by_cases hh : v = u ∧ h = g ∧ j = l
          · obtain ⟨rfl, rfl, rfl⟩ := hh
            rw [hth]
            simp only [Option.map_some, and_self, if_true]
            exact ⟨hf th, fun hx => by simp [hm] at hx⟩
          · cases s.thread? v h j with
            | none => trivial
            | some t =>
              simp only [Option.map_some, hh, if_false]
              exact Thread.Quiet.refl t
      have s1 := quietAll (fun t => { t with blocked := Blocked.none }) fun _ => rfl
      rcases State.trapEntry_frame (s.modThread u g l fun t => { t with blocked := Blocked.none }) u g l
        { pc, word := w, header := hd } { cause := Cause.converge, info := ls.setWidth 64 } (laneBit l) with h | h
      · exact s1.trans h
      · rw [State.modThread_modThread] at h
        refine Frame.trans (quietAll _ ?_) h
        intro t
        exact (Thread.enterTrap_regs { t with blocked := Blocked.none } _ _).trans rfl
    · exact Frame.refl s

theorem Frame.checkConverge (s : State) (u : Nat) : Frame s (s.checkConverge u) := by
  unfold State.checkConverge
  cases s.team? u with
  | none => exact Frame.refl s
  | some t =>
    dsimp only
    split
    · exact Frame.foldl _ (fun s x => Frame.convergeTrap s u _ _) _ s
    · exact Frame.refl s

/-! ## The end of a word -/

theorem Frame.settleFlags (s : State) (u g : Nat) : Frame s (s.settleFlags u g) :=
  Frame.modGang_same s u g _ (fun _ => rfl) fun _ => rfl

theorem Frame.settleReleases (s : State) (u g : Nat) : Frame s (s.settleReleases u g) := by
  unfold State.settleReleases
  cases s.team? u with
  | none => exact Frame.refl s
  | some t =>
    refine Frame.modGang s u g _ (fun _ => rfl) fun x l => QuietAt.map _ _ (fun th => ?_) l
    split
    · split
      · exact ⟨rfl, fun h => ⟨rfl, by simp_all [Thread.mayConverge]⟩⟩
      · exact Thread.Quiet.refl th
    · exact Thread.Quiet.refl th

/-- A gang as it is after an update that leaves masks and registers alone. -/
structure GangFrame (a b : Gang) : Prop where
  masks : b.masks = a.masks
  threads : ∀ l : Nat, QuietAt a.threads[l]? b.threads[l]?

theorem GangFrame.refl (a : Gang) : GangFrame a a := ⟨rfl, fun _ => QuietAt.refl _⟩

theorem GangFrame.trans {a b c : Gang} (h : GangFrame a b) (k : GangFrame b c) : GangFrame a c :=
  ⟨k.masks.trans h.masks, fun l => (h.threads l).trans (k.threads l)⟩

theorem GangFrame.of_eq {a b : Gang} (hm : b.masks = a.masks) (ht : b.threads = a.threads) : GangFrame a b :=
  ⟨hm, fun l => by rw [ht]; exact QuietAt.refl _⟩

theorem GangFrame.mapLanes (g : Gang) (ls : List Nat) (f : Nat → Thread → Thread) (hf : ∀ (l : Nat) (t : Thread), t.Quiet (f l t)) :
    GangFrame g (g.mapLanes ls f) := ⟨rfl, QuietAt.mapLanes g ls f hf⟩

theorem Frame.of_gang (s : State) (u g : Nat) (f : Gang → Gang) (h : ∀ x, GangFrame x (f x)) : Frame s (s.modGang u g f) :=
  Frame.modGang s u g f (fun x => (h x).masks) fun x => (h x).threads

theorem GangFrame.countWord (g : Gang) (m : W32) : GangFrame g (g.countWord m) :=
  (GangFrame.mapLanes g (lanesOf m) (fun _ t => { t with cnti := t.cnti + 1 }) fun _ _ => ⟨rfl, fun h => ⟨rfl, h⟩⟩).trans
    (GangFrame.of_eq rfl rfl)

theorem GangFrame.detach (g : Gang) (p : Path) : GangFrame g (g.detach p) := by
  unfold Gang.detach
  dsimp only
  refine (GangFrame.mapLanes g (g.blockedLanes p) (fun _ t => { t with resume := some { word := p.prefixAddr, header := p.header } })
    fun _ _ => ⟨rfl, fun h => ⟨rfl, h⟩⟩).trans ?_
  split <;> exact GangFrame.of_eq rfl rfl

theorem GangFrame.setRepState (g : Gang) (m : W32) (a b : Nat) : GangFrame g (g.setRepState m a b) :=
  GangFrame.mapLanes g (lanesOf m) _ fun _ _ => ⟨rfl, fun h => ⟨rfl, h⟩⟩

theorem GangFrame.endRepetition (g : Gang) (m : W32) (a b : Nat) : GangFrame g (g.endRepetition m a b) := by
  refine GangFrame.mapLanes g (lanesOf m) _ fun _ t => ?_
  dsimp only
  split <;> exact ⟨rfl, fun h => ⟨rfl, h⟩⟩

theorem Thread.quiet_reachWait (t : Thread) : t.Quiet t.reachWait := by
  unfold Thread.reachWait
  split
  · refine ⟨rfl, fun h => ⟨rfl, ?_⟩⟩
    simp only [Thread.mayConverge, Bool.or_eq_false_iff] at h ⊢
    exact ⟨h.2, trivial⟩
  · exact Thread.Quiet.refl t

theorem Thread.quiet_retireClause (t : Thread) (b : Bool) (n : W64) : t.Quiet (t.retireClause b n) := by
  unfold Thread.retireClause
  refine Thread.Quiet.trans ?_ (Thread.quiet_reachWait _)
  cases b
  · exact ⟨rfl, fun h => ⟨rfl, h⟩⟩
  · exact Thread.Quiet.refl t

theorem GangFrame.checkSerial (g : Gang) : GangFrame g g.checkSerial := by
  unfold Gang.checkSerial
  split <;> exact GangFrame.of_eq rfl rfl

theorem GangFrame.retireClause (g : Gang) (p : Path) : GangFrame g (g.retireClause p) := by
  unfold Gang.retireClause
  refine (GangFrame.mapLanes g (lanesOf p.lanes) (fun l t => t.retireClause (p.taken.getLsbD l) p.next)
    fun l t => t.quiet_retireClause _ _).trans ?_
  refine GangFrame.trans (b := (g.mapLanes (lanesOf p.lanes) fun l t => t.retireClause (p.taken.getLsbD l) p.next).dropPath p.uid)
    (GangFrame.of_eq rfl rfl) (GangFrame.checkSerial _)

theorem GangFrame.nextWord (g : Gang) (p : Path) : GangFrame g (g.nextWord p) := by
  unfold Gang.nextWord
  dsimp only
  split
  · exact GangFrame.retireClause _ _
  · exact GangFrame.detach _ _

theorem GangFrame.retireWord (g : Gang) (u : Nat) : GangFrame g (g.retireWord u) := by
  unfold Gang.retireWord
  cases g.path? u with
  | none => exact GangFrame.refl g
  | some p =>
    dsimp only
    split
    · exact GangFrame.of_eq rfl rfl
    · refine (GangFrame.countWord g p.lanes).trans ?_
      cases p.rep with
      | none => exact GangFrame.nextWord _ _
      | some r =>
        dsimp only
        split
        · exact (GangFrame.endRepetition _ _ _ _).trans (GangFrame.detach _ _)
        · exact (GangFrame.endRepetition _ _ _ _).trans (GangFrame.nextWord _ _)

theorem Frame.giveSlot (s : State) (c k : Nat) : Frame s (s.giveSlot c k) := by
  unfold State.giveSlot
  split
  · exact Frame.refl s
  · exact Frame.modGang_same s _ _ _ (fun _ => rfl) fun _ => rfl

theorem Frame.vacate (s : State) (u g : Nat) (r : Residency) : Frame s (s.vacate u g r) := by
  unfold State.vacate
  split
  · dsimp only
    refine Frame.trans ?_ (Frame.modGang_same _ _ _ _ (fun _ => rfl) fun _ => rfl)
    refine Frame.trans ?_ (Frame.giveSlot _ _ _)
    exact (Frame.emptyLatch _ _ _).trans (Frame.modGang_same _ _ _ _ (fun _ => rfl) fun _ => rfl)
  · exact Frame.modGang_same _ _ _ _ (fun _ => rfl) fun _ => rfl

theorem Frame.yieldGang (s : State) (i : Issue) (p : Path) : Frame s (s.yieldGang i p) := by
  unfold State.yieldGang
  dsimp only
  split
  · exact Frame.vacate _ _ _ _
  · exact Frame.refl s

theorem Frame.invalidateCode (s : State) (c : Nat) : Frame s (s.invalidateCode c) := Frame.modCore s c _ fun _ => rfl

theorem Frame.invalidateL1 (s : State) (c : Nat) : Frame s (s.modCore c fun k => { k with l1 := [] }) :=
  Frame.modCore s c _ fun _ => rfl

theorem Frame.afterClause (s : State) (i : Issue) (p : Option Path) : Frame s (s.afterClause i p) := by
  unfold State.afterClause
  cases p with
  | none => exact Frame.refl s
  | some p =>
    dsimp only
    split
    · exact (Frame.ite (Frame.invalidateCode s _) (Frame.refl s)).trans (Frame.yieldGang _ _ _)
    · exact Frame.refl s

/-- Retiring a word changes no register of a thread, no memory, and nothing that a team holds. -/
theorem Frame.retireWord (s : State) (i : Issue) : Frame s (s.retireWord i) := by
  unfold State.retireWord
  refine Frame.trans ?_ (Frame.checkConverge _ _)
  refine Frame.trans ?_ (Frame.afterClause _ _ _)
  exact (Frame.of_gang s _ _ _ fun x => GangFrame.retireWord x _).trans (Frame.settleFlags _ _ _)

end Sys2Proof.Machine
end

