-- ==== Sys2Proof/Laws/Memory.lean ====
section
/-! SUPPORT. Memory: what a write does to each byte, and that every operation keeps the canonical form. -/

namespace Sys2Proof.Machine

/-! ## Lists of cells -/

/-- Addresses strictly rise. -/
def Rising (cs : List Host.Cell) : Prop := cs.Pairwise fun c d => c.1 < d.1

/-- No cell equals the background. -/
def Listed (bg : Nat → Byte) (cs : List Host.Cell) : Prop := ∀ c ∈ cs, c.2 ≠ bg c.1

/-- The byte that a list of cells gives. -/
def cellAt (bg : Nat → Byte) (cs : List Host.Cell) (a : Nat) : Byte :=
  match cs.find? fun c => c.1 == a with
  | some c => c.2
  | none => bg a

theorem mem_putCell {bg : Byte} {a : Nat} {b : Byte} {cs : List Host.Cell} {c : Host.Cell}
    (h : c ∈ putCell bg a b cs) : c ∈ cs ∨ (c = (a, b) ∧ b ≠ bg) := by
  induction cs with
  | nil => simp only [putCell] at h; split at h <;> simp_all
  | cons d ds ih =>
    simp only [putCell] at h
    split at h
    · rcases List.mem_cons.mp h with rfl | h
      · simp
      · rcases ih h with h | h <;> simp [h]
    · split at h
      · split at h
        · simp_all
        · simp_all; tauto
      · split at h
        · simp_all
        · simp_all; tauto

theorem rising_putCell (bg : Byte) (a : Nat) (b : Byte) {cs : List Host.Cell} (h : Rising cs) :
    Rising (putCell bg a b cs) := by
  induction cs with
  | nil => simp only [putCell]; split <;> simp [Rising]
  | cons d ds ih =>
    obtain ⟨h1, h2⟩ := List.pairwise_cons.mp h
    simp only [putCell]
    split
    · rename_i lt
      refine List.pairwise_cons.mpr ⟨fun c hc => ?_, ih h2⟩
      rcases mem_putCell hc with hc | ⟨rfl, _⟩
      · exact h1 c hc
      · exact lt
    · split
      · rename_i eq
        split
        · exact h2
        · exact List.pairwise_cons.mpr ⟨fun c hc => by have := h1 c hc; simp only; omega, h2⟩
      · rename_i ge ne
        split
        · exact h
        · refine List.pairwise_cons.mpr ⟨fun c hc => ?_, h⟩
          rcases List.mem_cons.mp hc with rfl | hc
          · simp only; omega
          · have := h1 c hc; simp only; omega

theorem listed_putCell {bg : Nat → Byte} (a : Nat) (b : Byte) {cs : List Host.Cell} (h : Listed bg cs) :
    Listed bg (putCell (bg a) a b cs) := by
  intro c hc
  rcases mem_putCell hc with hc | ⟨rfl, hb⟩
  · exact h c hc
  · exact hb

theorem cellAt_cons (bg : Nat → Byte) (c : Host.Cell) (cs : List Host.Cell) (a : Nat) :
    cellAt bg (c :: cs) a = if c.1 = a then c.2 else cellAt bg cs a := by
  by_cases h : c.1 = a <;> simp [cellAt, h]

theorem cellAt_above (bg : Nat → Byte) {cs : List Host.Cell} {a : Nat} (h : ∀ c ∈ cs, a < c.1) : cellAt bg cs a = bg a := by
  induction cs with
  | nil => rfl
  | cons c cs ih =>
    have := h c (by simp)
    rw [cellAt_cons, if_neg (by omega), ih fun d hd => h d (by simp [hd])]

theorem cellAt_putCell (bg : Nat → Byte) (a : Nat) (b : Byte) {cs : List Host.Cell} (h : Rising cs) (k : Nat) :
    cellAt bg (putCell (bg a) a b cs) k = if k = a then b else cellAt bg cs k := by
  induction cs with
  | nil =>
    simp only [putCell]
    by_cases hb : b = bg a
    · rw [if_pos hb]
      by_cases hk : k = a
      · subst hk; simp [cellAt, hb]
      · simp [hk]
    · rw [if_neg hb, cellAt_cons]
      by_cases hk : k = a
      · simp [hk]
      · simp [hk, Ne.symm hk]
  | cons d ds ih =>
    obtain ⟨h1, h2⟩ := List.pairwise_cons.mp h
    simp only [putCell]
    by_cases lt : d.1 < a
    · rw [if_pos lt, cellAt_cons, ih h2, cellAt_cons]
      by_cases hd : d.1 = k
      · rw [if_pos hd, if_neg (by omega), if_pos hd]
      · simp [hd]
    · rw [if_neg lt]
      by_cases eq : d.1 = a
      · rw [if_pos eq, cellAt_cons]
        by_cases hk : k = a
        · subst hk
          by_cases hb : b = bg k
          · rw [if_pos hb, if_pos rfl, cellAt_above bg (fun c hc => by have := h1 c hc; omega), hb]
          · rw [if_neg hb, cellAt_cons]; simp
        · have : d.1 ≠ k := by omega
          by_cases hb : b = bg a
          · rw [if_pos hb]; simp [hk, this]
          · rw [if_neg hb, cellAt_cons]; simp [hk, this, Ne.symm hk]
      · rw [if_neg eq]
        by_cases hb : b = bg a
        · rw [if_pos hb]
          by_cases hk : k = a
          · subst hk
            rw [if_pos rfl, hb, cellAt_above bg]
            intro c hc
            rcases List.mem_cons.mp hc with rfl | hc
            · omega
            · have := h1 c hc; omega
          · simp [hk]
        · rw [if_neg hb, cellAt_cons]
          by_cases hk : k = a
          · simp [hk]
          · simp [hk, Ne.symm hk]

/-! ## One memory -/

theorem Memory.read_eq (m : Memory) (a : Nat) : m.read a = cellAt m.background m.cells a := rfl

theorem Memory.wf_iff (m : Memory) : m.wf = true ↔ Rising m.cells ∧ Listed m.background m.cells := by
  simp [Memory.wf, Rising, Listed]

@[simp] theorem Memory.background_write (m : Memory) (a k : Nat) (b : Byte) : (m.write a b).background k = m.background k := rfl

@[simp] theorem Memory.era_write (m : Memory) (a : Nat) (b : Byte) : (m.write a b).era = m.era := rfl

/-- A write keeps the canonical form. -/
theorem Memory.wf_write {m : Memory} (a : Nat) (b : Byte) (h : m.wf = true) : (m.write a b).wf = true := by
  rw [wf_iff] at h ⊢
  exact ⟨rising_putCell _ a b h.1, listed_putCell a b h.2⟩

/-- A read after a write: the byte written at its address, and what stood there at every other. -/
theorem Memory.read_write {m : Memory} (h : m.wf = true) (a k : Nat) (b : Byte) :
    (m.write a b).read k = if k = a then b else m.read k :=
  cellAt_putCell m.background a b ((wf_iff m).mp h).1 k

@[simp] theorem Memory.era_writeBytes (m : Memory) (a : Nat) (bs : List Byte) : (m.writeBytes a bs).era = m.era := by
  induction bs generalizing m a with
  | nil => rfl
  | cons b bs ih => simp [writeBytes, ih]

theorem Memory.wf_writeBytes {m : Memory} (a : Nat) (bs : List Byte) (h : m.wf = true) : (m.writeBytes a bs).wf = true := by
  induction bs generalizing m a with
  | nil => exact h
  | cons b bs ih => exact ih _ (wf_write a b h)

theorem Memory.wf_writeNat {m : Memory} (a n v : Nat) (h : m.wf = true) : (m.writeNat a n v).wf = true :=
  wf_writeBytes a _ h

/-- What each byte reads as after a run of bytes has been written. -/
theorem Memory.read_writeBytes {m : Memory} (h : m.wf = true) (a : Nat) (bs : List Byte) (k : Nat) :
    (m.writeBytes a bs).read k = if a ≤ k ∧ k < a + bs.length then bs.getD (k - a) 0#8 else m.read k := by
  induction bs generalizing m a with
  | nil => rw [writeBytes, if_neg (by simp)]
  | cons b bs ih =>
    rw [writeBytes, ih (wf_write a b h), read_write h]
    by_cases hk : k = a
    · subst hk; simp
    · by_cases hr : a + 1 ≤ k ∧ k < a + 1 + bs.length
      · have e : k - a = (k - (a + 1)) + 1 := by omega
        have l : a ≤ k ∧ k < a + (b :: bs).length := by simp only [List.length_cons]; omega
        rw [if_pos hr, if_pos l, e, List.getD_cons_succ]
      · have l : ¬(a ≤ k ∧ k < a + (b :: bs).length) := by simp only [List.length_cons]; omega
        rw [if_neg hr, if_neg l, if_neg hk]

@[simp] theorem Memory.length_readBytes (m : Memory) (a n : Nat) : (m.readBytes a n).length = n := by
  induction n generalizing a with
  | zero => rfl
  | succ n ih => simp [readBytes, ih]

theorem Memory.readBytes_getElem (m : Memory) (a n k : Nat) (h : k < n) : (m.readBytes a n).getD k 0#8 = m.read (a + k) := by
  induction n generalizing a k with
  | zero => omega
  | succ n ih =>
    cases k with
    | zero => rfl
    | succ k => rw [readBytes, List.getD_cons_succ, ih (a + 1) k (by omega)]; congr 1; omega

/-- The bytes written are the bytes read. -/
theorem Memory.readBytes_writeBytes {m : Memory} (h : m.wf = true) (a : Nat) (bs : List Byte) :
    (m.writeBytes a bs).readBytes a bs.length = bs := by
  apply List.ext_getElem (by simp)
  intro k h1 h2
  have h1' : k < bs.length := by simpa using h1
  have e := readBytes_getElem (m.writeBytes a bs) a bs.length k h1'
  rw [read_writeBytes h, if_pos (by omega), Nat.add_sub_cancel_left] at e
  simpa [List.getD_eq_getElem?_getD, h1'] using e

/-- Bytes outside what is written read as before. -/
theorem Memory.readBytes_writeBytes_of_disjoint {m : Memory} (h : m.wf = true) (a k n : Nat) (bs : List Byte)
    (d : k + n ≤ a ∨ a + bs.length ≤ k) : (m.writeBytes a bs).readBytes k n = m.readBytes k n := by
  induction n generalizing k with
  | zero => rfl
  | succ n ih =>
    rw [readBytes, readBytes, ih (k + 1) (by omega), read_writeBytes h, if_neg (by omega)]

/-- Zeroing keeps the canonical form. -/
theorem Memory.wf_zero {m : Memory} (a n : Nat) (h : m.wf = true) : (m.zero a n).wf = true := by
  unfold zero
  split
  · rw [wf_iff] at h ⊢
    exact ⟨h.1.filter _, fun c hc => h.2 c (List.mem_of_mem_filter hc)⟩
  · exact wf_writeBytes a _ h

/-- What each byte reads as after a range has been zeroed. -/
theorem Memory.read_zero {m : Memory} (h : m.wf = true) (a n k : Nat) :
    (m.zero a n).read k = if a ≤ k ∧ k < a + n then 0#8 else m.read k := by
  unfold zero
  split
  · rename_i e
    have bg : ∀ j, m.background j = 0#8 := fun j => by simp [background, e]
    have bg' : ∀ cs j, (Memory.mk m.era cs).background j = 0#8 := fun cs j => by simp [background, e]
    rw [read_eq, read_eq]
    induction m.cells with
    | nil => by_cases hk : a ≤ k ∧ k < a + n <;> simp [cellAt, hk, bg, bg']
    | cons c cs ih =>
      simp only [List.filter_cons]
      split
      · rename_i hc
        rw [cellAt_cons, cellAt_cons]
        by_cases he : c.1 = k
        · have : ¬(a ≤ k ∧ k < a + n) := by simp at hc; omega
          rw [if_pos he, if_pos he, if_neg this]
        · rw [if_neg he, if_neg he]; exact ih
      · rename_i hc
        rw [cellAt_cons]
        by_cases he : c.1 = k
        · have : a ≤ k ∧ k < a + n := by simp at hc; omega
          rw [if_pos this] at ih ⊢; exact ih
        · rw [if_neg he]; exact ih
  · rw [read_writeBytes h]
    simp only [List.length_replicate]
    split
    · rw [List.getD_eq_getElem?_getD, List.getElem?_replicate]; split <;> rfl
    · rfl

theorem Memory.wf_empty : Memory.empty.wf = true := by decide

/-! ## Device memory at its home -/

@[simp] theorem State.mem_setL2 (s : State) (x : L2Sector) : (s.setL2 x).mem = s.mem := rfl

@[simp] theorem State.mem_poison (s : State) (sec : Nat) : (s.poison sec).mem = s.mem := rfl

/-- A write at a home slice is a write of device memory, whatever it does to masks and poison. -/
theorem State.mem_homeWrite (s : State) (pa : Nat) (bs : List Byte) : (s.homeWrite pa bs).mem = s.mem.writeBytes pa bs := by
  induction bs generalizing s pa with
  | nil => rfl
  | cons b bs ih => rw [homeWrite, ih]; rfl

theorem State.wf_homeWrite {s : State} (pa : Nat) (bs : List Byte) (h : s.mem.wf = true) :
    (s.homeWrite pa bs).mem.wf = true := by
  rw [mem_homeWrite]; exact Memory.wf_writeBytes pa bs h

@[simp] theorem State.mem_homeZero (s : State) (pa n : Nat) : (s.homeZero pa n).mem = s.mem.zero pa n := rfl

theorem State.wf_homeZero {s : State} (pa n : Nat) (h : s.mem.wf = true) : (s.homeZero pa n).mem.wf = true :=
  Memory.wf_zero pa n h

end Sys2Proof.Machine
end

