-- ==== Sys2Proof/Laws/PerInstr.lean ====
section
/-! SUPPORT. What holds of every instruction as syntax, one lemma per constructor. -/

namespace Sys2Proof.Laws.RoundTrip

/-- An instruction that has an encoding decodes from it to itself. -/
def Statement (i : Instr) : Prop := ∀ w, encode i = some w → decode w = .ok i

theorem of_none {i : Instr} (h : encode i = none) : Statement i := fun _ k => by rw [h] at k; cases k

theorem of_some {i : Instr} {w : W32} (h : encode i = some w) (k : decode w = .ok i) : Statement i := by
  intro v e; rw [h] at e; cases e; exact k

theorem clauseHeader (w : BitVec 12) (a b l : BitVec 4) (y : BitVec 1) : Statement (.clauseHeader w a b l y) :=
  of_some rfl ((decode_packH _ _ _ _ _ _).trans (by delta decodeHeader; simp))
theorem bra (o : BitVec 18) : Statement (.bra o) :=
  of_some rfl ((decode_packL _ _ _ (by decide)).trans (by show decodeMajor01 _ = _; delta decodeMajor01; simp))
theorem brp (p : BitVec 3) (o : BitVec 18) : Statement (.brp p o) :=
  of_some rfl ((decode_packL _ _ _ (by decide)).trans (by show decodeMajor02 _ = _; delta decodeMajor02; simp))
theorem brnp (p : BitVec 3) (o : BitVec 18) : Statement (.brnp p o) :=
  of_some rfl ((decode_packL _ _ _ (by decide)).trans (by show decodeMajor02 _ = _; delta decodeMajor02; simp))
theorem brz (a : BitVec 7) (o : BitVec 18) : Statement (.brz a o) :=
  of_some rfl ((decode_packL _ _ _ (by decide)).trans (by show decodeMajor03 _ = _; delta decodeMajor03; simp))
theorem brnz (a : BitVec 7) (o : BitVec 18) : Statement (.brnz a o) :=
  of_some rfl ((decode_packL _ _ _ (by decide)).trans (by show decodeMajor04 _ = _; delta decodeMajor04; simp))
theorem call (o : BitVec 18) : Statement (.call o) :=
  of_some rfl ((decode_packL _ _ _ (by decide)).trans (by show decodeMajor05 _ = _; delta decodeMajor05; simp))
theorem calli (a : BitVec 7) : Statement (.calli a) :=
  of_some rfl ((decode_packR _ _ _ _ _ (by decide)).trans (by show decodeMajor06 _ = _; delta decodeMajor06; simp))
theorem ret : Statement (.ret) :=
  of_some rfl ((decode_packR _ _ _ _ _ (by decide)).trans (by show decodeMajor07 _ = _; delta decodeMajor07; simp))
theorem jmpi (a : BitVec 7) : Statement (.jmpi a) :=
  of_some rfl ((decode_packR _ _ _ _ _ (by decide)).trans (by show decodeMajor08 _ = _; delta decodeMajor08; simp))
theorem exit : Statement (.exit) :=
  of_some rfl ((decode_packR _ _ _ _ _ (by decide)).trans (by show decodeMajor09 _ = _; delta decodeMajor09; simp))
theorem rep (c : BitVec 6) (d a b : BitVec 3) : Statement (.rep c d a b) :=
  of_some rfl ((decode_packP _ _ _ _ _ _ (by decide)).trans (by show decodeMajor0A _ = _; delta decodeMajor0A; simp))
theorem grd (n : BitVec 1) (p : BitVec 3) : Statement (.grd n p) :=
  of_some rfl ((decode_packR _ _ _ _ _ (by decide)).trans (by show decodeMajor0B _ = _; delta decodeMajor0B; simp))
theorem wbase (i : BitVec 11) : Statement (.wbase i) :=
  of_some rfl ((decode_packI _ _ _ _ (by decide)).trans (by show decodeMajor0C _ = _; delta decodeMajor0C; simp))
theorem join (m : BitVec 7) : Statement (.join m) :=
  of_some rfl ((decode_packR _ _ _ _ _ (by decide)).trans (by show decodeMajor0D _ = _; delta decodeMajor0D; simp))
theorem leave (m : BitVec 7) : Statement (.leave m) :=
  of_some rfl ((decode_packR _ _ _ _ _ (by decide)).trans (by show decodeMajor0D _ = _; delta decodeMajor0D; simp))
theorem waitm (m : BitVec 7) : Statement (.waitm m) :=
  of_some rfl ((decode_packR _ _ _ _ _ (by decide)).trans (by show decodeMajor0D _ = _; delta decodeMajor0D; simp))
theorem mset (m b : BitVec 7) : Statement (.mset m b) :=
  of_some rfl ((decode_packR _ _ _ _ _ (by decide)).trans (by show decodeMajor0D _ = _; delta decodeMajor0D; simp))
theorem mget (d m : BitVec 7) : Statement (.mget d m) :=
  of_some rfl ((decode_packR _ _ _ _ _ (by decide)).trans (by show decodeMajor0D _ = _; delta decodeMajor0D; simp))
theorem anyVote (p a : BitVec 7) : Statement (.anyVote p a) :=
  of_some rfl ((decode_packR _ _ _ _ _ (by decide)).trans (by show decodeMajor0E _ = _; delta decodeMajor0E; simp))
theorem allVote (p a : BitVec 7) : Statement (.allVote p a) :=
  of_some rfl ((decode_packR _ _ _ _ _ (by decide)).trans (by show decodeMajor0E _ = _; delta decodeMajor0E; simp))
theorem ballot (d a : BitVec 7) : Statement (.ballot d a) :=
  of_some rfl ((decode_packR _ _ _ _ _ (by decide)).trans (by show decodeMajor0E _ = _; delta decodeMajor0E; simp))
theorem elect (p : BitVec 7) : Statement (.elect p) :=
  of_some rfl ((decode_packR _ _ _ _ _ (by decide)).trans (by show decodeMajor0E _ = _; delta decodeMajor0E; simp))
theorem matchLanes (d a : BitVec 7) : Statement (.matchLanes d a) :=
  of_some rfl ((decode_packR _ _ _ _ _ (by decide)).trans (by show decodeMajor0E _ = _; delta decodeMajor0E; simp))
theorem active (d : BitVec 7) : Statement (.active d) :=
  of_some rfl ((decode_packR _ _ _ _ _ (by decide)).trans (by show decodeMajor0E _ = _; delta decodeMajor0E; simp))
theorem rewarp (a n : BitVec 7) : Statement (.rewarp a n) :=
  of_some rfl ((decode_packR _ _ _ _ _ (by decide)).trans (by show decodeMajor0F _ = _; delta decodeMajor0F; simp))
theorem yield : Statement (.yield) :=
  of_some rfl ((decode_packR _ _ _ _ _ (by decide)).trans (by show decodeMajor10 _ = _; delta decodeMajor10; simp))
theorem brk (c : BitVec 7) : Statement (.brk c) :=
  of_some rfl ((decode_packR _ _ _ _ _ (by decide)).trans (by show decodeMajor10 _ = _; delta decodeMajor10; simp))
theorem trap (a : BitVec 7) : Statement (.trap a) :=
  of_some rfl ((decode_packR _ _ _ _ _ (by decide)).trans (by show decodeMajor10 _ = _; delta decodeMajor10; simp))
theorem eret : Statement (.eret) :=
  of_some rfl ((decode_packR _ _ _ _ _ (by decide)).trans (by show decodeMajor10 _ = _; delta decodeMajor10; simp))
theorem srd (d i j : BitVec 7) : Statement (.srd d i j) :=
  of_some rfl ((decode_packR _ _ _ _ _ (by decide)).trans (by show decodeMajor10 _ = _; delta decodeMajor10; simp))
theorem swr (s i j : BitVec 7) : Statement (.swr s i j) :=
  of_some rfl ((decode_packR _ _ _ _ _ (by decide)).trans (by show decodeMajor10 _ = _; delta decodeMajor10; simp))
theorem icinv : Statement (.icinv) :=
  of_some rfl ((decode_packR _ _ _ _ _ (by decide)).trans (by show decodeMajor10 _ = _; delta decodeMajor10; simp))
theorem cntc (d : BitVec 7) : Statement (.cntc d) :=
  of_some rfl ((decode_packR _ _ _ _ _ (by decide)).trans (by show decodeMajor11 _ = _; delta decodeMajor11; simp))
theorem cnti (d : BitVec 7) : Statement (.cnti d) :=
  of_some rfl ((decode_packR _ _ _ _ _ (by decide)).trans (by show decodeMajor11 _ = _; delta decodeMajor11; simp))
theorem add (u s : BitVec 1) (e : BitVec 2) (d a b : BitVec 7) : Statement (.add u s e d a b) :=
  of_some rfl ((decode_packR _ _ _ _ _ (by decide)).trans (by show decodeMajor12 _ = _; delta decodeMajor12; simp))
theorem sub (u s : BitVec 1) (e : BitVec 2) (d a b : BitVec 7) : Statement (.sub u s e d a b) :=
  of_some rfl ((decode_packR _ _ _ _ _ (by decide)).trans (by show decodeMajor13 _ = _; delta decodeMajor13; simp))
theorem addi (d a : BitVec 7) (i : BitVec 11) : Statement (.addi d a i) :=
  of_some rfl ((decode_packI _ _ _ _ (by decide)).trans (by show decodeMajor14 _ = _; delta decodeMajor14; simp))
theorem mul (u h : BitVec 1) (e : BitVec 2) (d a b : BitVec 7) : Statement (.mul u h e d a b) :=
  of_some rfl ((decode_packR _ _ _ _ _ (by decide)).trans (by show decodeMajor15 _ = _; delta decodeMajor15; simp))
theorem mad (e : BitVec 2) (d a b : BitVec 7) : Statement (.mad e d a b) :=
  of_some rfl ((decode_packR _ _ _ _ _ (by decide)).trans (by show decodeMajor16 _ = _; delta decodeMajor16; simp))
theorem min (u : BitVec 1) (e : BitVec 2) (d a b : BitVec 7) : Statement (.min u e d a b) :=
  of_some rfl ((decode_packR _ _ _ _ _ (by decide)).trans (by show decodeMajor17 _ = _; delta decodeMajor17; simp))
theorem max (u : BitVec 1) (e : BitVec 2) (d a b : BitVec 7) : Statement (.max u e d a b) :=
  of_some rfl ((decode_packR _ _ _ _ _ (by decide)).trans (by show decodeMajor18 _ = _; delta decodeMajor18; simp))
theorem abs (d a : BitVec 7) (e : BitVec 2) : Statement (.abs d a e) :=
  of_some rfl ((decode_packR _ _ _ _ _ (by decide)).trans (by show decodeMajor19 _ = _; delta decodeMajor19; simp))
theorem neg (d a : BitVec 7) (e : BitVec 2) : Statement (.neg d a e) :=
  of_some rfl ((decode_packR _ _ _ _ _ (by decide)).trans (by show decodeMajor19 _ = _; delta decodeMajor19; simp))
theorem not (d a : BitVec 7) (e : BitVec 2) : Statement (.not d a e) :=
  of_some rfl ((decode_packR _ _ _ _ _ (by decide)).trans (by show decodeMajor19 _ = _; delta decodeMajor19; simp))
theorem popc (d a : BitVec 7) (e : BitVec 2) : Statement (.popc d a e) :=
  of_some rfl ((decode_packR _ _ _ _ _ (by decide)).trans (by show decodeMajor19 _ = _; delta decodeMajor19; simp))
theorem clz (d a : BitVec 7) (e : BitVec 2) : Statement (.clz d a e) :=
  of_some rfl ((decode_packR _ _ _ _ _ (by decide)).trans (by show decodeMajor19 _ = _; delta decodeMajor19; simp))
theorem ctz (d a : BitVec 7) (e : BitVec 2) : Statement (.ctz d a e) :=
  of_some rfl ((decode_packR _ _ _ _ _ (by decide)).trans (by show decodeMajor19 _ = _; delta decodeMajor19; simp))
theorem brev (d a : BitVec 7) (e : BitVec 2) : Statement (.brev d a e) :=
  of_some rfl ((decode_packR _ _ _ _ _ (by decide)).trans (by show decodeMajor19 _ = _; delta decodeMajor19; simp))
theorem bswap (d a : BitVec 7) (e : BitVec 2) : Statement (.bswap d a e) :=
  of_some rfl ((decode_packR _ _ _ _ _ (by decide)).trans (by show decodeMajor19 _ = _; delta decodeMajor19; simp))
theorem and (d a b : BitVec 7) : Statement (.and d a b) :=
  of_some rfl ((decode_packR _ _ _ _ _ (by decide)).trans (by show decodeMajor1A _ = _; delta decodeMajor1A; simp))
theorem or (d a b : BitVec 7) : Statement (.or d a b) :=
  of_some rfl ((decode_packR _ _ _ _ _ (by decide)).trans (by show decodeMajor1A _ = _; delta decodeMajor1A; simp))
theorem xor (d a b : BitVec 7) : Statement (.xor d a b) :=
  of_some rfl ((decode_packR _ _ _ _ _ (by decide)).trans (by show decodeMajor1A _ = _; delta decodeMajor1A; simp))
theorem andn (d a b : BitVec 7) : Statement (.andn d a b) :=
  of_some rfl ((decode_packR _ _ _ _ _ (by decide)).trans (by show decodeMajor1A _ = _; delta decodeMajor1A; simp))
theorem orn (d a b : BitVec 7) : Statement (.orn d a b) :=
  of_some rfl ((decode_packR _ _ _ _ _ (by decide)).trans (by show decodeMajor1A _ = _; delta decodeMajor1A; simp))
theorem xnor (d a b : BitVec 7) : Statement (.xnor d a b) :=
  of_some rfl ((decode_packR _ _ _ _ _ (by decide)).trans (by show decodeMajor1A _ = _; delta decodeMajor1A; simp))
theorem andi (d a : BitVec 7) (i : BitVec 11) : Statement (.andi d a i) :=
  of_some rfl ((decode_packI _ _ _ _ (by decide)).trans (by show decodeMajor1B _ = _; delta decodeMajor1B; simp))
theorem ori (d a : BitVec 7) (i : BitVec 11) : Statement (.ori d a i) :=
  of_some rfl ((decode_packI _ _ _ _ (by decide)).trans (by show decodeMajor1C _ = _; delta decodeMajor1C; simp))
theorem xori (d a : BitVec 7) (i : BitVec 11) : Statement (.xori d a i) :=
  of_some rfl ((decode_packI _ _ _ _ (by decide)).trans (by show decodeMajor1D _ = _; delta decodeMajor1D; simp))
theorem shl (e : BitVec 2) (d a b : BitVec 7) : Statement (.shl e d a b) :=
  of_some rfl ((decode_packR _ _ _ _ _ (by decide)).trans (by show decodeMajor1E _ = _; delta decodeMajor1E; simp))
theorem shr (e : BitVec 2) (d a b : BitVec 7) : Statement (.shr e d a b) :=
  of_some rfl ((decode_packR _ _ _ _ _ (by decide)).trans (by show decodeMajor1E _ = _; delta decodeMajor1E; simp))
theorem sar (e : BitVec 2) (d a b : BitVec 7) : Statement (.sar e d a b) :=
  of_some rfl ((decode_packR _ _ _ _ _ (by decide)).trans (by show decodeMajor1E _ = _; delta decodeMajor1E; simp))
theorem rol (e : BitVec 2) (d a b : BitVec 7) : Statement (.rol e d a b) :=
  of_some rfl ((decode_packR _ _ _ _ _ (by decide)).trans (by show decodeMajor1E _ = _; delta decodeMajor1E; simp))
theorem shli (d a : BitVec 7) (n : BitVec 6) : Statement (.shli d a n) :=
  of_some rfl ((decode_packI _ _ _ _ (by decide)).trans (by show decodeMajor1F _ = _; delta decodeMajor1F; simp))
theorem shri (d a : BitVec 7) (n : BitVec 6) : Statement (.shri d a n) :=
  of_some rfl ((decode_packI _ _ _ _ (by decide)).trans (by show decodeMajor1F _ = _; delta decodeMajor1F; simp))
theorem sari (d a : BitVec 7) (n : BitVec 6) : Statement (.sari d a n) :=
  of_some rfl ((decode_packI _ _ _ _ (by decide)).trans (by show decodeMajor1F _ = _; delta decodeMajor1F; simp))
theorem roli (d a : BitVec 7) (n : BitVec 6) : Statement (.roli d a n) :=
  of_some rfl ((decode_packI _ _ _ _ (by decide)).trans (by show decodeMajor1F _ = _; delta decodeMajor1F; simp))
theorem bfx (s : BitVec 1) (d a b : BitVec 7) : Statement (.bfx s d a b) :=
  of_some rfl ((decode_packR _ _ _ _ _ (by decide)).trans (by show decodeMajor20 _ = _; delta decodeMajor20; simp))
theorem bfi (d a b : BitVec 7) : Statement (.bfi d a b) :=
  of_some rfl ((decode_packR _ _ _ _ _ (by decide)).trans (by show decodeMajor21 _ = _; delta decodeMajor21; simp))
theorem cmp (w : BitVec 1) (c : BitVec 3) (p a b : BitVec 7) : Statement (.cmp w c p a b) :=
  of_some rfl ((decode_packR _ _ _ _ _ (by decide)).trans (by show decodeMajor22 _ = _; delta decodeMajor22; simp))
theorem cmpi (c : BitVec 4) (p : BitVec 3) (a : BitVec 7) (i : BitVec 11) : Statement (.cmpi c p a i) :=
  of_some rfl ((decode_packI _ _ _ _ (by decide)).trans (by show decodeMajor23 _ = _; delta decodeMajor23; simp))
theorem sel (n : BitVec 1) (p : BitVec 3) (d a b : BitVec 7) : Statement (.sel n p d a b) :=
  of_some rfl ((decode_packR _ _ _ _ _ (by decide)).trans (by show decodeMajor24 _ = _; delta decodeMajor24; simp))
theorem mov (d a : BitVec 7) : Statement (.mov d a) :=
  of_some rfl ((decode_packR _ _ _ _ _ (by decide)).trans (by show decodeMajor25 _ = _; delta decodeMajor25; simp))
theorem pget (d : BitVec 7) : Statement (.pget d) :=
  of_some rfl ((decode_packR _ _ _ _ _ (by decide)).trans (by show decodeMajor25 _ = _; delta decodeMajor25; simp))
theorem pset (a : BitVec 7) : Statement (.pset a) :=
  of_some rfl ((decode_packR _ _ _ _ _ (by decide)).trans (by show decodeMajor25 _ = _; delta decodeMajor25; simp))
theorem pand (d a b : BitVec 7) : Statement (.pand d a b) :=
  of_some rfl ((decode_packR _ _ _ _ _ (by decide)).trans (by show decodeMajor25 _ = _; delta decodeMajor25; simp))
theorem por (d a b : BitVec 7) : Statement (.por d a b) :=
  of_some rfl ((decode_packR _ _ _ _ _ (by decide)).trans (by show decodeMajor25 _ = _; delta decodeMajor25; simp))
theorem pxor (d a b : BitVec 7) : Statement (.pxor d a b) :=
  of_some rfl ((decode_packR _ _ _ _ _ (by decide)).trans (by show decodeMajor25 _ = _; delta decodeMajor25; simp))
theorem pnot (d a : BitVec 7) : Statement (.pnot d a) :=
  of_some rfl ((decode_packR _ _ _ _ _ (by decide)).trans (by show decodeMajor25 _ = _; delta decodeMajor25; simp))
theorem mvi (d : BitVec 7) (i : BitVec 18) : Statement (.mvi d i) :=
  of_some rfl ((decode_packL _ _ _ (by decide)).trans (by show decodeMajor26 _ = _; delta decodeMajor26; simp))
theorem mvh1 (d : BitVec 7) (i : BitVec 18) : Statement (.mvh1 d i) :=
  of_some rfl ((decode_packL _ _ _ (by decide)).trans (by show decodeMajor27 _ = _; delta decodeMajor27; simp))
theorem mvh2 (d : BitVec 7) (i : BitVec 18) : Statement (.mvh2 d i) :=
  of_some rfl ((decode_packL _ _ _ (by decide)).trans (by show decodeMajor28 _ = _; delta decodeMajor28; simp))
theorem mvh3 (d : BitVec 7) (i : BitVec 10) : Statement (.mvh3 d i) :=
  of_some rfl ((decode_packL _ _ _ (by decide)).trans (by show decodeMajor29 _ = _; delta decodeMajor29; simp))
theorem lea (s : BitVec 2) (d a b : BitVec 7) : Statement (.lea s d a b) :=
  of_some rfl ((decode_packR _ _ _ _ _ (by decide)).trans (by show decodeMajor2A _ = _; delta decodeMajor2A; simp))
theorem pdot2 (u : BitVec 1) (d a b : BitVec 7) : Statement (.pdot2 u d a b) :=
  of_some rfl ((decode_packR _ _ _ _ _ (by decide)).trans (by show decodeMajor2B _ = _; delta decodeMajor2B; simp))
theorem psrr (e : BitVec 2) (d a b : BitVec 7) : Statement (.psrr e d a b) :=
  of_some rfl ((decode_packR _ _ _ _ _ (by decide)).trans (by show decodeMajor2C _ = _; delta decodeMajor2C; simp))
theorem pnarrow (u : BitVec 1) (e : BitVec 2) (d a b : BitVec 7) : Statement (.pnarrow u e d a b) :=
  of_some rfl ((decode_packR _ _ _ _ _ (by decide)).trans (by show decodeMajor2D _ = _; delta decodeMajor2D; simp))
theorem pwiden (x h : BitVec 1) (e : BitVec 2) (d a : BitVec 7) : Statement (.pwiden x h e d a) :=
  of_some rfl ((decode_packR _ _ _ _ _ (by decide)).trans (by show decodeMajor2E _ = _; delta decodeMajor2E; simp))
theorem fadd (r t : BitVec 2) (d a b : BitVec 7) : Statement (.fadd r t d a b) :=
  of_some rfl ((decode_packR _ _ _ _ _ (by decide)).trans (by show decodeMajor30 _ = _; delta decodeMajor30; simp))
theorem fsub (r t : BitVec 2) (d a b : BitVec 7) : Statement (.fsub r t d a b) :=
  of_some rfl ((decode_packR _ _ _ _ _ (by decide)).trans (by show decodeMajor31 _ = _; delta decodeMajor31; simp))
theorem fmul (r t : BitVec 2) (d a b : BitVec 7) : Statement (.fmul r t d a b) :=
  of_some rfl ((decode_packR _ _ _ _ _ (by decide)).trans (by show decodeMajor32 _ = _; delta decodeMajor32; simp))
theorem ffma (r t : BitVec 2) (d a b : BitVec 7) : Statement (.ffma r t d a b) :=
  of_some rfl ((decode_packR _ _ _ _ _ (by decide)).trans (by show decodeMajor33 _ = _; delta decodeMajor33; simp))
theorem fmin (n : BitVec 1) (t : BitVec 2) (d a b : BitVec 7) : Statement (.fmin n t d a b) :=
  of_some rfl ((decode_packR _ _ _ _ _ (by decide)).trans (by show decodeMajor34 _ = _; delta decodeMajor34; simp))
theorem fmax (n : BitVec 1) (t : BitVec 2) (d a b : BitVec 7) : Statement (.fmax n t d a b) :=
  of_some rfl ((decode_packR _ _ _ _ _ (by decide)).trans (by show decodeMajor34 _ = _; delta decodeMajor34; simp))
theorem fabs (t : BitVec 2) (d a : BitVec 7) : Statement (.fabs t d a) :=
  of_some rfl ((decode_packR _ _ _ _ _ (by decide)).trans (by show decodeMajor35 _ = _; delta decodeMajor35; simp))
theorem fneg (t : BitVec 2) (d a : BitVec 7) : Statement (.fneg t d a) :=
  of_some rfl ((decode_packR _ _ _ _ _ (by decide)).trans (by show decodeMajor35 _ = _; delta decodeMajor35; simp))
theorem fcpys (t : BitVec 2) (d a b : BitVec 7) : Statement (.fcpys t d a b) :=
  of_some rfl ((decode_packR _ _ _ _ _ (by decide)).trans (by show decodeMajor35 _ = _; delta decodeMajor35; simp))
theorem fcmp (c t : BitVec 2) (p a b : BitVec 7) : Statement (.fcmp c t p a b) :=
  of_some rfl ((decode_packR _ _ _ _ _ (by decide)).trans (by show decodeMajor36 _ = _; delta decodeMajor36; simp))
theorem fpcmp (c t : BitVec 2) (m a b : BitVec 7) : Statement (.fpcmp c t m a b) :=
  of_some rfl ((decode_packR _ _ _ _ _ (by decide)).trans (by show decodeMajor37 _ = _; delta decodeMajor37; simp))
theorem fcvt (c : BitVec 4) (d a : BitVec 7) (r : BitVec 2) (s : BitVec 3) : Statement (.fcvt c d a r s) :=
  of_some rfl ((decode_packR _ _ _ _ _ (by decide)).trans (by show decodeMajor38 _ = _; delta decodeMajor38; simp))
theorem frnd (r t : BitVec 2) (d a : BitVec 7) : Statement (.frnd r t d a) :=
  of_some rfl ((decode_packR _ _ _ _ _ (by decide)).trans (by show decodeMajor39 _ = _; delta decodeMajor39; simp))
theorem ftoi (r t : BitVec 2) (d a : BitVec 7) (u : BitVec 1) : Statement (.ftoi r t d a u) :=
  of_some rfl ((decode_packR _ _ _ _ _ (by decide)).trans (by show decodeMajor3A _ = _; delta decodeMajor3A; simp))
theorem itof (r t : BitVec 2) (d a : BitVec 7) (u : BitVec 1) : Statement (.itof r t d a u) :=
  of_some rfl ((decode_packR _ _ _ _ _ (by decide)).trans (by show decodeMajor3B _ = _; delta decodeMajor3B; simp))
theorem frcp (f : BitVec 1) (d a : BitVec 7) : Statement (.frcp f d a) :=
  of_some rfl ((decode_packR _ _ _ _ _ (by decide)).trans (by show decodeMajor3C _ = _; delta decodeMajor3C; simp))
theorem frsq (f : BitVec 1) (d a : BitVec 7) : Statement (.frsq f d a) :=
  of_some rfl ((decode_packR _ _ _ _ _ (by decide)).trans (by show decodeMajor3C _ = _; delta decodeMajor3C; simp))
theorem fsqrt (f : BitVec 1) (d a : BitVec 7) : Statement (.fsqrt f d a) :=
  of_some rfl ((decode_packR _ _ _ _ _ (by decide)).trans (by show decodeMajor3C _ = _; delta decodeMajor3C; simp))
theorem fex2 (d a : BitVec 7) : Statement (.fex2 d a) :=
  of_some rfl ((decode_packR _ _ _ _ _ (by decide)).trans (by show decodeMajor3C _ = _; delta decodeMajor3C; simp))
theorem flg2 (d a : BitVec 7) : Statement (.flg2 d a) :=
  of_some rfl ((decode_packR _ _ _ _ _ (by decide)).trans (by show decodeMajor3C _ = _; delta decodeMajor3C; simp))
theorem fsin (d a : BitVec 7) : Statement (.fsin d a) :=
  of_some rfl ((decode_packR _ _ _ _ _ (by decide)).trans (by show decodeMajor3C _ = _; delta decodeMajor3C; simp))
theorem fcos (d a : BitVec 7) : Statement (.fcos d a) :=
  of_some rfl ((decode_packR _ _ _ _ _ (by decide)).trans (by show decodeMajor3C _ = _; delta decodeMajor3C; simp))
theorem ftnh (d a : BitVec 7) : Statement (.ftnh d a) :=
  of_some rfl ((decode_packR _ _ _ _ _ (by decide)).trans (by show decodeMajor3C _ = _; delta decodeMajor3C; simp))
theorem fscl (t : BitVec 2) (d a b : BitVec 7) : Statement (.fscl t d a b) :=
  of_some rfl ((decode_packR _ _ _ _ _ (by decide)).trans (by show decodeMajor3D _ = _; delta decodeMajor3D; simp))
theorem fcls (t : BitVec 2) (d a : BitVec 7) : Statement (.fcls t d a) :=
  of_some rfl ((decode_packR _ _ _ _ _ (by decide)).trans (by show decodeMajor3E _ = _; delta decodeMajor3E; simp))
theorem shfl (e : BitVec 2) (d a b : BitVec 7) : Statement (.shfl e d a b) :=
  of_some rfl ((decode_packR _ _ _ _ _ (by decide)).trans (by show decodeMajor40 _ = _; delta decodeMajor40; simp))
theorem slide (e : BitVec 2) (v : BitVec 1) (d a b : BitVec 7) : Statement (.slide e v d a b) :=
  of_some rfl ((decode_packR _ _ _ _ _ (by decide)).trans (by show decodeMajor41 _ = _; delta decodeMajor41; simp))
theorem bcst (e : BitVec 2) (d a b : BitVec 7) : Statement (.bcst e d a b) :=
  of_some rfl ((decode_packR _ _ _ _ _ (by decide)).trans (by show decodeMajor42 _ = _; delta decodeMajor42; simp))
theorem lscan (i : BitVec 1) (o : BitVec 3) (d a : BitVec 7) (e : BitVec 2) : Statement (.lscan i o d a e) :=
  of_some rfl ((decode_packR _ _ _ _ _ (by decide)).trans (by show decodeMajor43 _ = _; delta decodeMajor43; simp))
theorem lsscan (i : BitVec 1) (o : BitVec 3) (d a b : BitVec 7) : Statement (.lsscan i o d a b) :=
  of_some rfl ((decode_packR _ _ _ _ _ (by decide)).trans (by show decodeMajor44 _ = _; delta decodeMajor44; simp))
theorem lred (i : BitVec 1) (o : BitVec 3) (d a : BitVec 7) (e : BitVec 2) : Statement (.lred i o d a e) :=
  of_some rfl ((decode_packR _ _ _ _ _ (by decide)).trans (by show decodeMajor45 _ = _; delta decodeMajor45; simp))
theorem isect (d a b : BitVec 7) : Statement (.isect d a b) :=
  of_some rfl ((decode_packR _ _ _ _ _ (by decide)).trans (by show decodeMajor46 _ = _; delta decodeMajor46; simp))
theorem ldd (d a : BitVec 7) (i : BitVec 11) : Statement (.ldd d a i) :=
  of_some rfl ((decode_packI _ _ _ _ (by decide)).trans (by show decodeMajor48 _ = _; delta decodeMajor48; simp))
theorem ldw (d a : BitVec 7) (i : BitVec 11) : Statement (.ldw d a i) :=
  of_some rfl ((decode_packI _ _ _ _ (by decide)).trans (by show decodeMajor49 _ = _; delta decodeMajor49; simp))
theorem ldh (d a : BitVec 7) (i : BitVec 11) : Statement (.ldh d a i) :=
  of_some rfl ((decode_packI _ _ _ _ (by decide)).trans (by show decodeMajor4A _ = _; delta decodeMajor4A; simp))
theorem ldb (d a : BitVec 7) (i : BitVec 11) : Statement (.ldb d a i) :=
  of_some rfl ((decode_packI _ _ _ _ (by decide)).trans (by show decodeMajor4B _ = _; delta decodeMajor4B; simp))
theorem ldx (t s : BitVec 1) (e : BitVec 2) (d a b : BitVec 7) : Statement (.ldx t s e d a b) :=
  of_some rfl ((decode_packR _ _ _ _ _ (by decide)).trans (by show decodeMajor4C _ = _; delta decodeMajor4C; simp))
theorem std (d a : BitVec 7) (i : BitVec 11) : Statement (.std d a i) :=
  of_some rfl ((decode_packI _ _ _ _ (by decide)).trans (by show decodeMajor4D _ = _; delta decodeMajor4D; simp))
theorem stw (d a : BitVec 7) (i : BitVec 11) : Statement (.stw d a i) :=
  of_some rfl ((decode_packI _ _ _ _ (by decide)).trans (by show decodeMajor4E _ = _; delta decodeMajor4E; simp))
theorem sth (d a : BitVec 7) (i : BitVec 11) : Statement (.sth d a i) :=
  of_some rfl ((decode_packI _ _ _ _ (by decide)).trans (by show decodeMajor4F _ = _; delta decodeMajor4F; simp))
theorem stb (d a : BitVec 7) (i : BitVec 11) : Statement (.stb d a i) :=
  of_some rfl ((decode_packI _ _ _ _ (by decide)).trans (by show decodeMajor50 _ = _; delta decodeMajor50; simp))
theorem stx (e : BitVec 2) (d a b : BitVec 7) : Statement (.stx e d a b) :=
  of_some rfl ((decode_packR _ _ _ _ _ (by decide)).trans (by show decodeMajor51 _ = _; delta decodeMajor51; simp))
theorem lds (s : BitVec 1) (e : BitVec 2) (d a b : BitVec 7) : Statement (.lds s e d a b) :=
  of_some rfl ((decode_packR _ _ _ _ _ (by decide)).trans (by show decodeMajor52 _ = _; delta decodeMajor52; simp))
theorem sts (e : BitVec 2) (d a b : BitVec 7) : Statement (.sts e d a b) :=
  of_some rfl ((decode_packR _ _ _ _ _ (by decide)).trans (by show decodeMajor53 _ = _; delta decodeMajor53; simp))
theorem prfl1 (a b : BitVec 7) : Statement (.prfl1 a b) :=
  of_some rfl ((decode_packR _ _ _ _ _ (by decide)).trans (by show decodeMajor54 _ = _; delta decodeMajor54; simp))
theorem prfl2 (a b : BitVec 7) : Statement (.prfl2 a b) :=
  of_some rfl ((decode_packR _ _ _ _ _ (by decide)).trans (by show decodeMajor54 _ = _; delta decodeMajor54; simp))
theorem dscd (a b : BitVec 7) : Statement (.dscd a b) :=
  of_some rfl ((decode_packR _ _ _ _ _ (by decide)).trans (by show decodeMajor54 _ = _; delta decodeMajor54; simp))
theorem atom (o : BitVec 4) (d a b : BitVec 7) : Statement (.atom o d a b) :=
  of_some rfl ((decode_packR _ _ _ _ _ (by decide)).trans (by show decodeMajor55 _ = _; delta decodeMajor55; simp))
theorem atomw (o : BitVec 4) (d a b : BitVec 7) : Statement (.atomw o d a b) :=
  of_some rfl ((decode_packR _ _ _ _ _ (by decide)).trans (by show decodeMajor56 _ = _; delta decodeMajor56; simp))
theorem atred (o : BitVec 4) (z : BitVec 1) (a b : BitVec 7) : Statement (.atred o z a b) :=
  of_some rfl ((decode_packR _ _ _ _ _ (by decide)).trans (by show decodeMajor57 _ = _; delta decodeMajor57; simp))
theorem cas (w : BitVec 1) (d a b : BitVec 7) : Statement (.cas w d a b) :=
  of_some rfl ((decode_packR _ _ _ _ _ (by decide)).trans (by show decodeMajor58 _ = _; delta decodeMajor58; simp))
theorem fence (s k : BitVec 2) : Statement (.fence s k) :=
  of_some rfl ((decode_packR _ _ _ _ _ (by decide)).trans (by show decodeMajor59 _ = _; delta decodeMajor59; simp))
theorem waitf (c : BitVec 2) (d a b : BitVec 7) : Statement (.waitf c d a b) :=
  of_some rfl ((decode_packR _ _ _ _ _ (by decide)).trans (by show decodeMajor5A _ = _; delta decodeMajor5A; simp))
theorem bars (i : BitVec 10) : Statement (.bars i) :=
  of_some rfl ((decode_packI _ _ _ _ (by decide)).trans (by show decodeMajor5B _ = _; delta decodeMajor5B; simp))
theorem bara (i : BitVec 10) : Statement (.bara i) :=
  of_some rfl ((decode_packI _ _ _ _ (by decide)).trans (by show decodeMajor5B _ = _; delta decodeMajor5B; simp))
theorem barw (i : BitVec 10) : Statement (.barw i) :=
  of_some rfl ((decode_packI _ _ _ _ (by decide)).trans (by show decodeMajor5B _ = _; delta decodeMajor5B; simp))
theorem bari (a : BitVec 7) (i : BitVec 10) : Statement (.bari a i) :=
  of_some rfl ((decode_packI _ _ _ _ (by decide)).trans (by show decodeMajor5B _ = _; delta decodeMajor5B; simp))
theorem gbar : Statement (.gbar) :=
  of_some rfl ((decode_packR _ _ _ _ _ (by decide)).trans (by show decodeMajor5C _ = _; delta decodeMajor5C; simp))
theorem tlwait (c : BitVec 4) (a : BitVec 7) : Statement (.tlwait c a) :=
  of_some rfl ((decode_packR _ _ _ _ _ (by decide)).trans (by show decodeMajor5D _ = _; delta decodeMajor5D; simp))
theorem tlrd (c : BitVec 4) (d : BitVec 7) : Statement (.tlrd c d) :=
  of_some rfl ((decode_packR _ _ _ _ _ (by decide)).trans (by show decodeMajor5E _ = _; delta decodeMajor5E; simp))
theorem stq (q : BitVec 2) (a : BitVec 7) : Statement (.stq q a) :=
  of_some rfl ((decode_packR _ _ _ _ _ (by decide)).trans (by show decodeMajor5F _ = _; delta decodeMajor5F; simp))
theorem goCopy (d c : BitVec 7) : Statement (.goCopy d c) :=
  of_some rfl ((decode_packR _ _ _ _ _ (by decide)).trans (by show decodeMajor60 _ = _; delta decodeMajor60; simp))
theorem goGather (d c : BitVec 7) : Statement (.goGather d c) :=
  of_some rfl ((decode_packR _ _ _ _ _ (by decide)).trans (by show decodeMajor60 _ = _; delta decodeMajor60; simp))
theorem txb : Statement (.txb) :=
  of_some rfl ((decode_packR _ _ _ _ _ (by decide)).trans (by show decodeMajor61 _ = _; delta decodeMajor61; simp))
theorem txc (d : BitVec 7) : Statement (.txc d) :=
  of_some rfl ((decode_packR _ _ _ _ _ (by decide)).trans (by show decodeMajor61 _ = _; delta decodeMajor61; simp))
theorem txa (a : BitVec 7) : Statement (.txa a) :=
  of_some rfl ((decode_packR _ _ _ _ _ (by decide)).trans (by show decodeMajor61 _ = _; delta decodeMajor61; simp))
theorem txs (d : BitVec 7) : Statement (.txs d) :=
  of_some rfl ((decode_packR _ _ _ _ _ (by decide)).trans (by show decodeMajor61 _ = _; delta decodeMajor61; simp))
theorem mma (o p s u : BitVec 1) (t a b : BitVec 7) : Statement (.mma o p s u t a b) :=
  of_some rfl ((decode_packR _ _ _ _ _ (by decide)).trans (by show decodeMajor62 _ = _; delta decodeMajor62; simp))
theorem accrd (f : BitVec 1) (k : BitVec 3) (d t : BitVec 7) (y : BitVec 2) : Statement (.accrd f k d t y) :=
  of_some rfl ((decode_packR _ _ _ _ _ (by decide)).trans (by show decodeMajor63 _ = _; delta decodeMajor63; simp))
theorem accwr (f : BitVec 1) (k : BitVec 3) (t a : BitVec 7) (y : BitVec 2) : Statement (.accwr f k t a y) :=
  of_some rfl ((decode_packR _ _ _ _ _ (by decide)).trans (by show decodeMajor64 _ = _; delta decodeMajor64; simp))
theorem accz (f : BitVec 1) (t n : BitVec 7) : Statement (.accz f t n) :=
  of_some rfl ((decode_packR _ _ _ _ _ (by decide)).trans (by show decodeMajor65 _ = _; delta decodeMajor65; simp))
theorem spawn (d a b : BitVec 7) : Statement (.spawn d a b) :=
  of_some rfl ((decode_packR _ _ _ _ _ (by decide)).trans (by show decodeMajor66 _ = _; delta decodeMajor66; simp))
theorem spawnr (d a b : BitVec 7) : Statement (.spawnr d a b) :=
  of_some rfl ((decode_packR _ _ _ _ _ (by decide)).trans (by show decodeMajor66 _ = _; delta decodeMajor66; simp))
theorem tail (d a : BitVec 7) : Statement (.tail d a) :=
  of_some rfl ((decode_packR _ _ _ _ _ (by decide)).trans (by show decodeMajor66 _ = _; delta decodeMajor66; simp))
theorem claim (n : BitVec 1) (d a : BitVec 7) : Statement (.claim n d a) :=
  of_some rfl ((decode_packR _ _ _ _ _ (by decide)).trans (by show decodeMajor67 _ = _; delta decodeMajor67; simp))
theorem fulfil (a b : BitVec 7) : Statement (.fulfil a b) :=
  of_some rfl ((decode_packR _ _ _ _ _ (by decide)).trans (by show decodeMajor68 _ = _; delta decodeMajor68; simp))
theorem relinq (a : BitVec 7) : Statement (.relinq a) :=
  of_some rfl ((decode_packR _ _ _ _ _ (by decide)).trans (by show decodeMajor68 _ = _; delta decodeMajor68; simp))
theorem forget (a : BitVec 7) : Statement (.forget a) :=
  of_some rfl ((decode_packR _ _ _ _ _ (by decide)).trans (by show decodeMajor68 _ = _; delta decodeMajor68; simp))
theorem edit (d a : BitVec 7) (i : BitVec 11) : Statement (.edit d a i) :=
  of_some rfl ((decode_packI _ _ _ _ (by decide)).trans (by show decodeMajor69 _ = _; delta decodeMajor69; simp))
theorem propagate (y : BitVec 1) (d a b : BitVec 7) : Statement (.propagate y d a b) :=
  of_some rfl ((decode_packR _ _ _ _ _ (by decide)).trans (by show decodeMajor6A _ = _; delta decodeMajor6A; simp))
theorem trcon : Statement (.trcon) :=
  of_some rfl ((decode_packR _ _ _ _ _ (by decide)).trans (by show decodeMajor6B _ = _; delta decodeMajor6B; simp))
theorem trcoff : Statement (.trcoff) :=
  of_some rfl ((decode_packR _ _ _ _ _ (by decide)).trans (by show decodeMajor6B _ = _; delta decodeMajor6B; simp))
theorem tdig (d : BitVec 7) : Statement (.tdig d) :=
  of_some rfl ((decode_packR _ _ _ _ _ (by decide)).trans (by show decodeMajor6B _ = _; delta decodeMajor6B; simp))
theorem tstat (d a : BitVec 7) : Statement (.tstat d a) :=
  of_some rfl ((decode_packR _ _ _ _ _ (by decide)).trans (by show decodeMajor6B _ = _; delta decodeMajor6B; simp))
theorem rbgive (k a : BitVec 7) (n : BitVec 3) : Statement (.rbgive k a n) :=
  of_some rfl ((decode_packR _ _ _ _ _ (by decide)).trans (by show decodeMajor6C _ = _; delta decodeMajor6C; simp))
theorem rbtake (d k : BitVec 7) (n : BitVec 3) : Statement (.rbtake d k n) :=
  of_some rfl ((decode_packR _ _ _ _ _ (by decide)).trans (by show decodeMajor6C _ = _; delta decodeMajor6C; simp))
theorem gangVote (team gang : Nat) : Statement (.gangVote team gang) := of_none rfl
theorem regroup (team : Nat) : Statement (.regroup team) := of_none rfl
theorem loadComplete (op : Nat) : Statement (.loadComplete op) := of_none rfl
theorem atomicComplete (op : Nat) : Statement (.atomicComplete op) := of_none rfl
theorem storeAcknowledge (site : StoreSite) : Statement (.storeAcknowledge site) := of_none rfl
theorem waitfObservation (team gang lane : Nat) : Statement (.waitfObservation team gang lane) := of_none rfl
theorem claimResultDelivery (op : Nat) : Statement (.claimResultDelivery op) := of_none rfl
theorem txcComplete (op : Nat) : Statement (.txcComplete op) := of_none rfl
theorem spawnComplete (op : Nat) : Statement (.spawnComplete op) := of_none rfl
theorem spawnrDeparture (op : Nat) : Statement (.spawnrDeparture op) := of_none rfl
theorem mmaComplete (op : Nat) (check : ArrayCheck) : Statement (.mmaComplete op check) := of_none rfl
theorem accrdComplete (op : Nat) : Statement (.accrdComplete op) := of_none rfl
theorem engineCommandStart (cmd : Nat) : Statement (.engineCommandStart cmd) := of_none rfl
theorem copyCommandComplete (cmd : Nat) : Statement (.copyCommandComplete cmd) := of_none rfl
theorem gatherCommandComplete (cmd : Nat) : Statement (.gatherCommandComplete cmd) := of_none rfl
theorem launchDispatch (queue : Nat) : Statement (.launchDispatch queue) := of_none rfl
theorem teamAdmission (task : Nat) : Statement (.teamAdmission task) := of_none rfl
theorem zeroingComplete (team : Nat) : Statement (.zeroingComplete team) := of_none rfl
theorem taskEnd (team : Nat) : Statement (.taskEnd team) := of_none rfl
theorem reckonerStartTask (ctx : Nat) : Statement (.reckonerStartTask ctx) := of_none rfl
theorem detGrant (launch : Nat) : Statement (.detGrant launch) := of_none rfl
theorem killDrainComplete (team : Nat) : Statement (.killDrainComplete team) := of_none rfl
theorem preemptDrainComplete (team : Nat) : Statement (.preemptDrainComplete team) := of_none rfl
theorem teamRestore (team : Nat) : Statement (.teamRestore team) := of_none rfl
theorem tableWalkComplete (walk : Nat) : Statement (.tableWalkComplete walk) := of_none rfl
theorem faultRecordPost : Statement (.faultRecordPost) := of_none rfl
theorem invalComplete (inval : Nat) : Statement (.invalComplete inval) := of_none rfl
theorem auditReplay (audit : Nat) : Statement (.auditReplay audit) := of_none rfl
theorem auditReplayEnd (audit : Nat) : Statement (.auditReplayEnd audit) := of_none rfl
theorem l2Scrub (sector : Nat) (result : StorageResult) : Statement (.l2Scrub sector result) := of_none rfl
theorem storageError (site : StorageSite) (corrected : Bool) : Statement (.storageError site corrected) := of_none rfl
theorem ctxset (ctx table privBase privSize saveBase saveSize gangQuota poolQuota : Nat) : Statement (.ctxset ctx table privBase privSize saveBase saveSize gangQuota poolQuota) := of_none rfl
theorem qcfg (queue ctx priority ringBase entries template : Nat) : Statement (.qcfg queue ctx priority ringBase entries template) := of_none rfl
theorem qdestroy (queue : Nat) : Statement (.qdestroy queue) := of_none rfl
theorem inval (ctx va pages : Nat) : Statement (.inval ctx va pages) := of_none rfl
theorem resolve (fault action : Nat) : Statement (.resolve fault action) := of_none rfl
theorem aperture (entry kind target : Nat) : Statement (.aperture entry kind target) := of_none rfl
theorem trrel (ctx : Nat) : Statement (.trrel ctx) := of_none rfl
theorem budget (core budget : Nat) : Statement (.budget core budget) := of_none rfl
theorem backing (base entries : Nat) : Statement (.backing base entries) := of_none rfl
theorem preempt (ctx core slot hold : Nat) : Statement (.preempt ctx core slot hold) := of_none rfl
theorem fqset (base entries vector : Nat) : Statement (.fqset base entries vector) := of_none rfl
theorem mcqset (base entries vector : Nat) : Statement (.mcqset base entries vector) := of_none rfl
theorem resume (ctx : Nat) : Statement (.resume ctx) := of_none rfl
theorem audit (core enable k : Nat) : Statement (.audit core enable k) := of_none rfl
theorem qtailWrite (queue size address : Nat) : Statement (.qtailWrite queue size address) := of_none rfl
theorem qstatWrite (queue : Nat) (value : BitVec 64) : Statement (.qstatWrite queue value) := of_none rfl
theorem edwinWrite (size : Nat) (address data : BitVec 64) : Statement (.edwinWrite size address data) := of_none rfl
theorem mcheadWrite (value : Nat) : Statement (.mcheadWrite value) := of_none rfl
theorem registerWrite (offset size : Nat) (value : BitVec 512) : Statement (.registerWrite offset size value) := of_none rfl
theorem hostMemoryWrite (address : Nat) (data : List Byte) : Statement (.hostMemoryWrite address data) := of_none rfl
theorem hostMemoryRead (address size : Nat) : Statement (.hostMemoryRead address size) := of_none rfl
theorem packetForward (port : Nat) (packet : Packet) : Statement (.packetForward port packet) := of_none rfl
theorem taskPacketArrival (packet : Packet) : Statement (.taskPacketArrival packet) := of_none rfl
theorem remoteRequestArrival (packet : Packet) : Statement (.remoteRequestArrival packet) := of_none rfl
theorem responseArrival (packet : Packet) : Statement (.responseArrival packet) := of_none rfl
theorem acknowledgementArrival (packet : Packet) : Statement (.acknowledgementArrival packet) := of_none rfl
theorem negativeAckArrival (packet : Packet) : Statement (.negativeAckArrival packet) := of_none rfl
theorem linkFlitError (port : Nat) (replayed : Bool) : Statement (.linkFlitError port replayed) := of_none rfl
theorem linkErrorWindow (port count : Nat) : Statement (.linkErrorWindow port count) := of_none rfl
theorem linkPortDown (port : Nat) : Statement (.linkPortDown port) := of_none rfl
theorem islandRailGood : Statement (.islandRailGood) := of_none rfl
theorem islandRailLost : Statement (.islandRailLost) := of_none rfl
theorem islandOnlyReset : Statement (.islandOnlyReset) := of_none rfl
theorem computeOnlyReset : Statement (.computeOnlyReset) := of_none rfl
theorem computePowerOff : Statement (.computePowerOff) := of_none rfl
theorem regulatorTrip (regulator : Nat) : Statement (.regulatorTrip regulator) := of_none rfl
theorem islandDrainComplete : Statement (.islandDrainComplete) := of_none rfl
theorem islandReturnFull : Statement (.islandReturnFull) := of_none rfl
theorem islandUnavailable : Statement (.islandUnavailable) := of_none rfl
theorem rootOfTrustCheck (fusesReadable : Bool) : Statement (.rootOfTrustCheck fusesReadable) := of_none rfl
theorem islandFirmwareLoad (image : Image) : Statement (.islandFirmwareLoad image) := of_none rfl
theorem linkTraining (trained : BitVec 12) (config : IslandConfig) : Statement (.linkTraining trained config) := of_none rfl
theorem bootImageLoad (images : List Image) : Statement (.bootImageLoad images) := of_none rfl
theorem bDieRelease (images : List Image) : Statement (.bDieRelease images) := of_none rfl
theorem computeDieRelease (images : List Image) : Statement (.computeDieRelease images) := of_none rfl
theorem attestationRequest (nonce : BitVec 256) : Statement (.attestationRequest nonce) := of_none rfl
theorem bootResumeCommand : Statement (.bootResumeCommand) := of_none rfl
theorem recoveryImage (image : Image) : Statement (.recoveryImage image) := of_none rfl
theorem portRestoreCommand (port : Nat) : Statement (.portRestoreCommand port) := of_none rfl
theorem coreUnretireCommand (core : Nat) : Statement (.coreUnretireCommand core) := of_none rfl
theorem coreErrorWindow (core : Nat) (array : CoreArray) (count : Nat) : Statement (.coreErrorWindow core array count) := of_none rfl
theorem linkUp (port : Nat) : Statement (.linkUp port) := of_none rfl

end Sys2Proof.Laws.RoundTrip
end

