-- ==== Sys2Proof/Laws/Stores.lean ====
section
/-! SUPPORT. What the operations on the store path and on pending operations leave alone: they change no register of a
thread, no memory and nothing that a team holds. -/

namespace Sys2Proof.Machine

theorem Frame.bump (s : State) : Frame s s.bump := Frame.of_eq rfl rfl rfl rfl

theorem Frame.withOps (s : State) (xs : List Op) : Frame s { s with ops := xs } := Frame.of_eq rfl rfl rfl rfl

/-- A pending operation is added. -/
theorem Frame.addOp (s : State) (i : Issue) (l : Nat) (k : OpKind) : Frame s (s.addOp i l k) := by
  unfold State.addOp
  dsimp only
  refine Frame.trans ?_ (Frame.modThread _ _ _ _ (fun t => { t with memSeq := t.memSeq + 1 }) fun _ => ⟨rfl, fun h => ⟨rfl, h⟩⟩)
  exact Frame.of_eq rfl rfl rfl rfl

/-- A store enters the path, or is kept back. -/
theorem Frame.addStore (s : State) (i : Issue) (l : Nat) (va : W64) (pa : Nat) (data : List Byte) (k : StoreKind) (d : Bool) :
    Frame s (s.addStore i l va pa data k d) := by
  unfold State.addStore
  dsimp only
  split
  on_goal 2 =>
    refine Frame.trans ?_ (Frame.of_gang _ _ _ (fun g => { g with unacked := g.unacked + 1 }) fun _ => GangFrame.of_eq rfl rfl)
  all_goals
    refine Frame.trans ?_ (Frame.modThread _ _ _ _ (fun t => { t with memSeq := t.memSeq + 1 }) fun _ => ⟨rfl, fun h => ⟨rfl, h⟩⟩)
    refine Frame.trans ?_ (Frame.bump _)
    exact Frame.modCore s i.team.core _ fun _ => rfl

/-- A store that was kept back enters the path. -/
theorem Frame.enterPath (s : State) (core : Nat) (x : StoreOp) : Frame s (s.enterPath core x) := by
  unfold State.enterPath
  dsimp only
  refine Frame.trans ?_ (Frame.bump _)
  refine Frame.trans ?_ (Frame.of_gang _ _ _ (fun g => { g with unacked := g.unacked + 1 }) fun _ => GangFrame.of_eq rfl rfl)
  refine Frame.trans ?_ (Frame.modThread _ _ _ _
    (fun t => { t with seen := raiseMark x.uid s.nextUid t.seen, relStore := raiseMark x.uid s.nextUid t.relStore })
    fun _ => ⟨rfl, fun h => ⟨rfl, h⟩⟩)
  refine Frame.trans ?_ (Frame.withOps _ _)
  exact Frame.modCore s core _ fun _ => rfl

theorem Frame.enterPaths (s : State) (core : Nat) : Frame s (s.enterPaths core) := by
  refine Frame.foldl _ (fun s x => ?_) _ s
  split
  · exact Frame.enterPath s core _
  · exact Frame.refl s

theorem Frame.settleStores (s : State) : Frame s s.settleStores := Frame.foldl _ Frame.enterPaths _ s

/-- A unit's write that waits changes nothing yet. -/
theorem State.orLater_waits (s : State) (w : UnitWrite) (act : State → State) (h : s.unitZeroing w.ctx w.va = true) :
    s.orLater w act = { s with unitWrites := s.unitWrites ++ [w] } := by simp [State.orLater, h]

theorem State.orLater_acts (s : State) (w : UnitWrite) (act : State → State) (h : s.unitZeroing w.ctx w.va = false) :
    s.orLater w act = act s := by simp [State.orLater, h]

end Sys2Proof.Machine
end

