-- ==== Sys2Proof/Laws/Words.lean ====
section
/-! SUPPORT. What a word does whose fields are good in every active thread: its act in those threads, within the frame
of its beginning and its end. -/

namespace Sys2Proof.Machine

/-! ## The checks of fields (R313) -/

/-- A field that a thread may use. -/
def Field.Ok (l : Lane) : Field → Prop
  | .src f n => 1 ≤ n ∧ l.readable f n
  | .dst f n => 1 ≤ n ∧ l.writable f n
  | .idx v b => v < b
  | .must ok _ => ok = true

theorem Field.fault_none {l : Lane} {x : Field} (h : x.Ok l) : x.fault = none := by
  cases x with
  | src f n =>
    obtain ⟨hn, h⟩ := h
    unfold Lane.readable at h
    have e : f = 112#7 ↔ f.toNat = 112 := by rw [← BitVec.toNat_inj]; rfl
    rw [e] at h
    simp only [Field.fault, runOk]
    rw [if_neg (by omega)]
    rcases h with h | h | h | h
    · simp [h.1]
    · simp [h]
    · simp [h]
    · simp [h.1]
  | dst f n =>
    obtain ⟨hn, h⟩ := h
    unfold Lane.writable at h
    have e : f = 112#7 ↔ f.toNat = 112 := by rw [← BitVec.toNat_inj]; rfl
    rw [e] at h
    simp only [Field.fault, runOk]
    rcases h with h | h | h
    · simp [h.1]
    · simp [h]
    · simp [h]
  | idx v b =>
    have : v < b := h
    simp [Field.fault, this]
  | must ok v =>
    have : ok = true := h
    simp [Field.fault, this]

theorem Field.window_none {l : Lane} {x : Field} (h : x.Ok l) : x.window l.thread.winBase l.alloc = none := by
  cases x with
  | src f n =>
    obtain ⟨hn, h⟩ := h
    unfold Lane.readable at h
    have e : f = 112#7 ↔ f.toNat = 112 := by rw [← BitVec.toNat_inj]; rfl
    rw [e] at h
    simp only [Field.window]
    rw [if_neg]
    simp only [Bool.and_eq_true, decide_eq_true_eq]
    omega
  | dst f n =>
    obtain ⟨hn, h⟩ := h
    unfold Lane.writable at h
    have e : f = 112#7 ↔ f.toNat = 112 := by rw [← BitVec.toNat_inj]; rfl
    rw [e] at h
    simp only [Field.window]
    rw [if_neg]
    simp only [Bool.and_eq_true, decide_eq_true_eq]
    omega
  | idx v b => rfl
  | must ok v => rfl

theorem leastOf_none : ∀ xs : List (Option Nat), (∀ x ∈ xs, x = none) → leastOf xs = none
  | [], _ => rfl
  | x :: xs, h => by
    have hx : x = none := h x (by simp)
    subst hx
    exact leastOf_none xs fun y hy => h y (by simp [hy])

/-- A thread that may use every field of a word meets no trap of R313. -/
theorem Lane.fieldTrap_none (l : Lane) (w : W32) (fs : List Field) (h : ∀ x ∈ fs, x.Ok l) : l.fieldTrap w fs = none := by
  have h1 : fs.findSome? Field.fault = none := by
    rw [List.findSome?_eq_none_iff]
    exact fun x hx => Field.fault_none (h x hx)
  have h2 : leastOf (fs.map (Field.window l.thread.winBase l.alloc)) = none := by
    apply leastOf_none
    intro x hx
    obtain ⟨y, hy, rfl⟩ := List.mem_map.mp hx
    exact Field.window_none (h y hy)
  unfold Lane.fieldTrap
  rw [h1, h2]

theorem fieldCheck_none (w : W32) (fs : List Field) (l : Lane) (h : ∀ x ∈ fs, x.Ok l) : fieldCheck w true fs l = none :=
  l.fieldTrap_none w fs h

/-! ## Effects on registers -/

/-- A thread whose registers become those given, and whose saved registers stay unless it waits at a REWARP. -/
def Thread.Becomes (a b : Thread) (r : Regs) : Prop :=
  b.regs = r ∧ (a.mayConverge = false → b.trapRegs = a.trapRegs ∧ b.mayConverge = false)

/-- Whether a place is an active thread of the issuing path. -/
def Issue.at (i : Issue) (u g l : Nat) : Prop := u = i.cursor.team ∧ g = i.cursor.gang ∧ l ∈ i.active

/-- The whole effect of a word on registers: f in its active threads. -/
structure Effect (s t : State) (i : Issue) (f : Nat → Regs → Regs) : Prop where
  mem : t.mem = s.mem
  l2 : t.l2 = s.l2
  holdings : SameHoldings s t
  masks : SameMasks s t
  audit : SameAudit s t
  threads : ∀ u g l,
    (s.thread? u g l = none ∧ t.thread? u g l = none) ∨
      ∃ a b, s.thread? u g l = some a ∧ t.thread? u g l = some b ∧
        ((¬i.at u g l ∧ a.Becomes b a.regs) ∨ (i.at u g l ∧ a.Becomes b (f l a.regs)))

theorem QuietAt.cases {a b : Option Thread} (h : QuietAt a b) :
    (a = none ∧ b = none) ∨ ∃ x y, a = some x ∧ b = some y ∧ x.Quiet y := by
  cases a <;> cases b
  · exact .inl ⟨rfl, rfl⟩
  · exact h.elim
  · exact False.elim h
  · exact .inr ⟨_, _, rfl, rfl, h⟩

theorem Effect.before {s a t : State} {i : Issue} {f : Nat → Regs → Regs} (h : Frame s a) (k : Effect a t i f) :
    Effect s t i f := by
  refine ⟨k.mem.trans h.mem, k.l2.trans h.l2, fun u => (k.holdings u).trans (h.holdings u),
    fun u g => (k.masks u g).trans (h.masks u g), fun c => (k.audit c).trans (h.audit c), fun u g l => ?_⟩
  rcases (h.threads u g l).cases with ⟨h1, h2⟩ | ⟨x, y, h1, h2, q⟩
  · rcases k.threads u g l with ⟨_, k2⟩ | ⟨c, d, k1, _⟩
    · exact .inl ⟨h1, k2⟩
    · rw [h2] at k1; cases k1
  · rcases k.threads u g l with ⟨k1, _⟩ | ⟨c, d, k1, k2, k3⟩
    · rw [h2] at k1; cases k1
    · rw [h2] at k1
      cases k1
      refine .inr ⟨x, d, h1, k2, ?_⟩
      rcases k3 with ⟨n, e, m⟩ | ⟨n, e, m⟩
      · exact .inl ⟨n, e.trans q.1, fun z => ⟨(m (q.2 z).2).1.trans (q.2 z).1, (m (q.2 z).2).2⟩⟩
      · refine .inr ⟨n, ?_, fun z => ⟨(m (q.2 z).2).1.trans (q.2 z).1, (m (q.2 z).2).2⟩⟩
        rw [e, q.1]

theorem Effect.after {s a t : State} {i : Issue} {f : Nat → Regs → Regs} (k : Effect s a i f) (h : Frame a t) :
    Effect s t i f := by
  refine ⟨h.mem.trans k.mem, h.l2.trans k.l2, fun u => (h.holdings u).trans (k.holdings u),
    fun u g => (h.masks u g).trans (k.masks u g), fun c => (h.audit c).trans (k.audit c), fun u g l => ?_⟩
  rcases k.threads u g l with ⟨k1, k2⟩ | ⟨c, d, k1, k2, k3⟩
  · rcases (h.threads u g l).cases with ⟨_, h2⟩ | ⟨x, y, h1, _⟩
    · exact .inl ⟨k1, h2⟩
    · rw [k2] at h1; cases h1
  · rcases (h.threads u g l).cases with ⟨h1, _⟩ | ⟨x, y, h1, h2, q⟩
    · rw [k2] at h1; cases h1
    · rw [k2] at h1
      cases h1
      refine .inr ⟨c, y, k1, h2, ?_⟩
      rcases k3 with ⟨n, e, m⟩ | ⟨n, e, m⟩
      · exact .inl ⟨n, q.1.trans e, fun z => ⟨(q.2 (m z).2).1.trans (m z).1, (q.2 (m z).2).2⟩⟩
      · exact .inr ⟨n, q.1.trans e, fun z => ⟨(q.2 (m z).2).1.trans (m z).1, (q.2 (m z).2).2⟩⟩

theorem Effect.onlyRegs {s t : State} {i : Issue} {f : Nat → Regs → Regs} (h : Effect s t i f) : OnlyRegs s t i f := by
  refine ⟨fun u g l => ?_, ⟨h.mem, h.l2⟩, h.holdings, h.masks, h.audit, fun u g l a b ha hb hm => ?_⟩
  · rcases h.threads u g l with ⟨h1, h2⟩ | ⟨a, b, h1, h2, ⟨n, e, _⟩ | ⟨n, e, _⟩⟩
    · rw [h1, h2]; rfl
    · rw [h1, h2]
      simp only [Option.map_some]
      rw [e]
      exact congrArg some (if_neg n).symm
    · rw [h1, h2]
      simp only [Option.map_some]
      rw [e]
      exact congrArg some (if_pos n).symm
  · rcases h.threads u g l with ⟨h1, _⟩ | ⟨c, d, h1, h2, ⟨_, _, m⟩ | ⟨_, _, m⟩⟩
    · rw [ha] at h1; cases h1
    · rw [ha] at h1; rw [hb] at h2; cases h1; cases h2; exact (m hm).1
    · rw [ha] at h1; rw [hb] at h2; cases h1; cases h2; exact (m hm).1

/-- The act of a word on its active threads, thread by thread. -/
theorem Effect.mapLanes (s : State) (i : Issue) (act : Nat → Thread → Thread) (f : Nat → Regs → Regs)
    (hr : ∀ l t, (act l t).regs = f l t.regs) (ht : ∀ l t, (act l t).trapRegs = t.trapRegs)
    (hm : ∀ l t, (act l t).mayConverge = t.mayConverge) :
    Effect s (s.modGang i.cursor.team i.cursor.gang fun g => g.mapLanes i.active act) i f := by
  refine ⟨rfl, rfl, sameHoldings_modGang s _ _ _, fun u g => ?_, fun _ => rfl, fun u g l => ?_⟩
  · rw [s.gang?_modGang]
    cases s.gang? u g with
    | none => rfl
    | some x => by_cases h : u = i.cursor.team ∧ g = i.cursor.gang <;> simp [h]
  · rw [s.thread?_modGang_of _ _ _ _ _ _ (fun l t => if i.active.contains l then act l t else t)
      fun x l => x.threads_mapLanes _ _ l]
    cases h : s.thread? u g l with
    | none => exact .inl ⟨rfl, rfl⟩
    | some a =>
      refine .inr ⟨a, _, rfl, rfl, ?_⟩
      by_cases hp : i.at u g l
      · refine .inr ⟨hp, ?_⟩
        obtain ⟨h1, h2, h3⟩ := hp
        have h3' : i.active.contains l = true := by simpa using h3
        simp only [h1, h2, h3', and_self, if_true]
        exact ⟨hr l a, fun z => ⟨ht l a, (hm l a).trans z⟩⟩
      · refine .inl ⟨hp, ?_⟩
        by_cases h12 : u = i.cursor.team ∧ g = i.cursor.gang
        · have h3 : i.active.contains l = false := by
            rw [Bool.eq_false_iff]
            intro h3
            exact hp ⟨h12.1, h12.2, by simpa using h3⟩
          simp only [h12, and_self, if_true, h3, Bool.false_eq_true, if_false]
          exact ⟨rfl, fun z => ⟨rfl, z⟩⟩
        · simp only [h12, if_false]
          exact ⟨rfl, fun z => ⟨rfl, z⟩⟩

/-! ## The issuing path -/

theorem State.issue_of {s : State} {i : Issue} (h : s.issue = some i) :
    s.cur = some i.cursor ∧ s.team? i.cursor.team = some i.team ∧ s.taskOf i.team = some i.task
      ∧ s.launch? i.team.launch = some i.launch ∧ i.team.gangs[i.cursor.gang]? = some i.gang
      ∧ i.gang.path? i.cursor.path = some i.path := by
  unfold State.issue at h
  cases hc : s.cur with
  | none => rw [hc] at h; cases h
  | some c =>
    rw [hc] at h
    simp only [Option.bind_some, State.issueAt, Option.bind_eq_some_iff] at h
    obtain ⟨t, h1, k, h2, la, h3, g, h4, p, h5, h6⟩ := h
    cases h6
    exact ⟨rfl, h1, h2, h3, h4, h5⟩

theorem State.issue_gang {s : State} {i : Issue} (h : s.issue = some i) :
    s.gang? i.cursor.team i.cursor.gang = some i.gang := by
  obtain ⟨_, h1, _, _, h4, _⟩ := State.issue_of h
  unfold State.gang?
  rw [h1]
  exact h4

theorem State.issue_path {s : State} {i : Issue} (h : s.issue = some i) : s.path? i.cursor = some i.path := by
  obtain ⟨_, _, _, _, _, h5⟩ := State.issue_of h
  unfold State.path?
  rw [State.issue_gang h]
  exact h5

/-- A thread of the issuing gang is the one that the issue shows. -/
theorem State.issue_thread {s : State} {i : Issue} (h : s.issue = some i) {l : Nat} {th : Thread}
    (ht : s.thread? i.cursor.team i.cursor.gang l = some th) : th = i.thread l := by
  unfold State.thread? at ht
  rw [State.issue_gang h] at ht
  simp only [Option.bind_some] at ht
  simp [Issue.thread, List.getD_eq_getElem?_getD, ht]

theorem OnlyRegs.congr {s t : State} {i : Issue} {f k : Nat → Regs → Regs} (hi : s.issue = some i)
    (h : ∀ l ∈ i.active, f l (i.thread l).regs = k l (i.thread l).regs) (hf : OnlyRegs s t i f) : OnlyRegs s t i k := by
  refine ⟨fun u g l => ?_, hf.2⟩
  rw [hf.1 u g l]
  cases ht : s.thread? u g l with
  | none => rfl
  | some th =>
    simp only [Option.map_some, Option.some.injEq]
    split
    · next hp =>
      obtain ⟨rfl, rfl, hl⟩ := hp
      rw [State.issue_thread hi ht]
      exact h l hl
    · rfl

/-! ## Words -/

theorem filter_eq_self_of {α : Type} (p : α → Bool) (xs : List α) (h : ∀ x ∈ xs, p x = true) : xs.filter p = xs :=
  List.filter_eq_self.mpr h

theorem filterMap_eq_nil_of {α β : Type} (f : α → Option β) (xs : List α) (h : ∀ x ∈ xs, f x = none) :
    xs.filterMap f = [] := by
  rw [List.filterMap_eq_nil_iff]
  exact h

/-- A word whose checks pass in every active thread. -/
theorem runWord_pass (s : State) (i : Issue) (check : Lane → Option Trap) (act : List Nat → State → State)
    (h : ∀ l ∈ i.active, check (i.lane l) = none) : runWord s i check act = (act i.active (s.beginWord i)).retireWord i := by
  unfold runWord
  rw [filter_eq_self_of _ _ (fun l hl => by simp [h l hl]),
    filterMap_eq_nil_of _ _ (fun l hl => by simp [h l hl])]
  rfl

/-- A word that acts in each active thread on that thread's registers alone. -/
theorem threadWord_effect (s : State) (i : Issue) (hi : s.issue = some i) (check : Lane → Option Trap)
    (act : Lane → Thread → Thread) (f : Nat → Regs → Regs) (hc : ∀ l ∈ i.active, check (i.lane l) = none)
    (hr : ∀ l t, (act (i.lane l) t).regs = f l t.regs) (ht : ∀ l t, (act (i.lane l) t).trapRegs = t.trapRegs)
    (hm : ∀ l t, (act (i.lane l) t).mayConverge = t.mayConverge) :
    ∃ t, threadWord s check act = .next t ∧ OnlyRegs s t i f := by
  refine ⟨_, ?_, (Effect.before (Frame.beginWord s i)
    ((Effect.mapLanes (s.beginWord i) i (fun l t => act (i.lane l) t) f hr ht hm).after
      (Frame.retireWord _ i))).onlyRegs⟩
  unfold threadWord
  rw [hi]
  dsimp only
  rw [runWord_pass s i check _ hc]

/-- The same for a word that acts across its threads. -/
theorem pathWord_effect (s : State) (i : Issue) (hi : s.issue = some i) (check : Issue → Lane → Option Trap)
    (act : Issue → List Nat → State → State) (f : Nat → Regs → Regs) (hc : ∀ l ∈ i.active, check i (i.lane l) = none)
    (ha : Effect (s.beginWord i) (act i i.active (s.beginWord i)) i f) :
    ∃ t, pathWord s check act = .next t ∧ OnlyRegs s t i f := by
  refine ⟨_, ?_, (Effect.before (Frame.beginWord s i) (ha.after (Frame.retireWord _ i))).onlyRegs⟩
  unfold pathWord
  rw [hi]
  dsimp only
  rw [runWord_pass s i (check i) _ hc]

/-! ## Writing registers -/

theorem Lane.dest_put (l : Lane) (d : BitVec 7) (v : W64) (r : Regs) (h : r.winBase = l.thread.winBase) :
    r.put (l.dest d) v = r.set d v := by
  unfold Lane.dest Regs.set
  split
  · simp [Regs.put, h]
  · split <;> rfl

theorem Thread.write_regs (t : Thread) (d : Dest) (v : W64) : (t.write d v).regs = t.regs.put d v := by
  cases d <;> rfl

@[simp] theorem Thread.write_trapRegs (t : Thread) (d : Dest) (v : W64) : (t.write d v).trapRegs = t.trapRegs := by
  cases d <;> rfl

@[simp] theorem Thread.write_mayConverge (t : Thread) (d : Dest) (v : W64) :
    (t.write d v).mayConverge = t.mayConverge := by cases d <;> rfl

end Sys2Proof.Machine
end

