-- ==== Sys2Proof/Laws/ThreadWords.lean ====
section
/-! SUPPORT. The shapes of the integer and floating-point words: when every field is good, what the word writes. -/

namespace Sys2Proof.Machine

theorem Thread.setReg_regs (l : Lane) (d : BitVec 7) (v : W64) (t : Thread) :
    (setReg l d v t).regs = t.regs.put (l.dest d) v := t.write_regs _ _

/-- The fields of an active thread that the obligations' premises allow. -/
theorem Issue.ok_src {i : Issue} {fs : List (BitVec 7)} (h : i.reads fs) {l : Nat} (hl : l ∈ i.active) {f : BitVec 7}
    (hf : f ∈ fs) : (Field.src f 1).Ok (i.lane l) := ⟨Nat.le_refl 1, h l hl f hf⟩

theorem Issue.ok_dst {i : Issue} {d : BitVec 7} (h : i.writes d) {l : Nat} (hl : l ∈ i.active) :
    (Field.dst d 1).Ok (i.lane l) := ⟨Nat.le_refl 1, h l hl⟩

/-- A word that writes one register and may set SATF. -/
theorem intWord_effect (s : State) (i : Issue) (hi : s.issue = some i) (fs : List Field) (d : BitVec 7)
    (f : Lane → W64 × Bool) (hf : ∀ l ∈ i.active, ∀ x ∈ fs, x.Ok (i.lane l)) :
    ∃ t, intWord s true fs d f = .next t
      ∧ OnlyRegs s t i fun l r => { r.set d (f (i.lane l)).1 with satf := r.satf || (f (i.lane l)).2 } := by
  obtain ⟨t, h1, h2⟩ := threadWord_effect s i hi (fieldCheck s.curWord true fs)
    (fun l t => (setReg l d (f l).1 t).orSat (f l).2)
    (fun l r => { r.put ((i.lane l).dest d) (f (i.lane l)).1 with satf := r.satf || (f (i.lane l)).2 })
    (fun l hl => fieldCheck_none _ _ _ (hf l hl))
    (fun l t => by unfold setReg; cases (i.lane l).dest d <;> rfl)
    (fun l t => by unfold setReg; cases (i.lane l).dest d <;> rfl)
    (fun l t => by unfold setReg; cases (i.lane l).dest d <;> rfl)
  refine ⟨t, h1, h2.congr hi fun l _ => ?_⟩
  rw [Lane.dest_put _ _ _ _ rfl]

/-- A word that writes one register. -/
theorem plainWord_effect (s : State) (i : Issue) (hi : s.issue = some i) (fs : List Field) (d : BitVec 7)
    (f : Lane → W64) (hf : ∀ l ∈ i.active, ∀ x ∈ fs, x.Ok (i.lane l)) :
    ∃ t, plainWord s true fs d f = .next t ∧ OnlyRegs s t i fun l r => r.set d (f (i.lane l)) := by
  obtain ⟨t, h1, h2⟩ := threadWord_effect s i hi (fieldCheck s.curWord true fs) (fun l t => setReg l d (f l) t)
    (fun l r => r.put ((i.lane l).dest d) (f (i.lane l)))
    (fun l hl => fieldCheck_none _ _ _ (hf l hl))
    (fun l t => by unfold setReg; cases (i.lane l).dest d <;> rfl)
    (fun l t => by unfold setReg; cases (i.lane l).dest d <;> rfl)
    (fun l t => by unfold setReg; cases (i.lane l).dest d <;> rfl)
  refine ⟨t, h1, h2.congr hi fun l _ => ?_⟩
  rw [Lane.dest_put _ _ _ _ rfl]

theorem Thread.setPred_regs (t : Thread) (k : Nat) (v : Bool) (hk : k < 8) :
    (t.setPred k v).regs = t.regs.setPred k v := by
  have key : ∀ p : BitVec 8, (if v then p ||| (1#8 <<< k) else p &&& ~~~(1#8 <<< k))
      = BitVec.ofFnLE fun j : Fin 8 => if j.val = k then v else p.getLsbD j.val := by
    intro p
    apply BitVec.eq_of_getLsbD_eq
    intro j hj
    have hj' : j < 8 := hj
    cases v <;> interval_cases k <;> interval_cases j <;> simp
  show Regs.mk _ _ _ _ _ _ _ _ _ _ = Regs.mk _ _ _ _ _ _ _ _ _ _
  simp only [Thread.setPred, Thread.regs, key]

/-- A word that sets one predicate. -/
theorem predWord_effect (s : State) (i : Issue) (hi : s.issue = some i) (fs : List Field) (p : Nat) (hp : p < 8)
    (f : Lane → Bool) (hf : ∀ l ∈ i.active, ∀ x ∈ fs, x.Ok (i.lane l)) :
    ∃ t, predWord s true fs p f = .next t ∧ OnlyRegs s t i fun l r => r.setPred p (f (i.lane l)) :=
  threadWord_effect s i hi (fieldCheck s.curWord true fs) (fun l t => t.setPred p (f l))
    (fun l r => r.setPred p (f (i.lane l))) (fun l hl => fieldCheck_none _ _ _ (hf l hl))
    (fun _ t => t.setPred_regs p _ hp) (fun _ _ => rfl) (fun _ _ => rfl)

/-- A word that writes one register and ORs flags into its thread. -/
theorem floatWord_effect (s : State) (i : Issue) (hi : s.issue = some i) (fs : List Field) (d : BitVec 7)
    (f : Lane → W64 × Flags × Bool) (hf : ∀ l ∈ i.active, ∀ x ∈ fs, x.Ok (i.lane l)) :
    ∃ t, floatWord s true fs d f = .next t
      ∧ OnlyRegs s t i fun l r =>
          { r.set d (f (i.lane l)).1 with
            fp := r.fp ||| (f (i.lane l)).2.1, satf := r.satf || (f (i.lane l)).2.2 } := by
  obtain ⟨t, h1, h2⟩ := threadWord_effect s i hi (fieldCheck s.curWord true fs)
    (fun l t => ((setReg l d (f l).1 t).orFp (f l).2.1).orSat (f l).2.2)
    (fun l r => { r.put ((i.lane l).dest d) (f (i.lane l)).1 with
      fp := r.fp ||| (f (i.lane l)).2.1, satf := r.satf || (f (i.lane l)).2.2 })
    (fun l hl => fieldCheck_none _ _ _ (hf l hl))
    (fun l t => by unfold setReg; cases (i.lane l).dest d <;> rfl)
    (fun l t => by unfold setReg; cases (i.lane l).dest d <;> rfl)
    (fun l t => by unfold setReg; cases (i.lane l).dest d <;> rfl)
  refine ⟨t, h1, h2.congr hi fun l _ => ?_⟩
  rw [Lane.dest_put _ _ _ _ rfl]

end Sys2Proof.Machine
end

