-- ==== Sys2Proof/Tests/Slice0.lean ====
section
/-! SUPPORT. The model's own tests: ill-formed terms, words of the specification's examples, single steps on small
states, and for each statement a state that meets its hypotheses. -/

namespace Sys2Proof.Tests

open Sys2Proof Sys2Proof.Machine

set_option maxRecDepth 20000
set_option exponentiation.threshold 600

/-! ## Ill-formed terms -/

/-- A packet that R271 allows. -/
def somePacket : Packet :=
  { dst := 5, src := 9, vc := 0, flits := 1, kind := 0, tag := 1, addr := 0x40#64, payload := List.replicate 64 0#8 }

theorem test_wf_header_empty : (Instr.clauseHeader 0#12 15#4 15#4 0#4 0#1).wf = false := by decide
theorem test_wf_header_flag_a : (Instr.clauseHeader 0#12 12#4 15#4 1#4 0#1).wf = false := by decide
theorem test_wf_header_flag_b : (Instr.clauseHeader 0#12 15#4 14#4 1#4 0#1).wf = false := by decide
theorem test_wf_header : (Instr.clauseHeader 0#12 11#4 15#4 15#4 1#1).wf = true := by decide
theorem test_wf_cmpi : (Instr.cmpi 8#4 0#3 0#7 0#11).wf = false := by decide
theorem test_wf_pnarrow : (Instr.pnarrow 0#1 0#2 1#7 2#7 3#7).wf = false := by decide
theorem test_wf_pwiden : (Instr.pwiden 0#1 0#1 3#2 1#7 2#7).wf = false := by decide
theorem test_wf_fcvt_code : (Instr.fcvt 15#4 1#7 2#7 0#2 0#3).wf = false := by decide
theorem test_wf_fcvt_round : (Instr.fcvt 0#4 1#7 2#7 1#2 0#3).wf = false := by decide
theorem test_wf_fcvt_slot : (Instr.fcvt 2#4 1#7 2#7 0#2 1#3).wf = false := by decide
theorem test_wf_fence_scope : (Instr.fence 3#2 0#2).wf = false := by decide
theorem test_wf_fence_kind : (Instr.fence 0#2 3#2).wf = false := by decide
theorem test_wf_accrd : (Instr.accrd 0#1 0#3 0#7 0#7 3#2).wf = false := by decide
theorem test_wf_accwr : (Instr.accwr 0#1 0#3 0#7 0#7 3#2).wf = false := by decide
theorem test_wf_gang : (Instr.gangVote 0 16).wf = false := by decide
theorem test_wf_core : (Instr.storeAcknowledge ⟨288, 0⟩).wf = false := by decide
theorem test_wf_observer_gang : (Instr.waitfObservation 0 16 0).wf = false := by decide
theorem test_wf_observer_lane : (Instr.waitfObservation 0 0 32).wf = false := by decide
theorem test_wf_queue : (Instr.launchDispatch 64).wf = false := by decide
theorem test_wf_context : (Instr.reckonerStartTask 16).wf = false := by decide
theorem test_wf_write_empty : (Instr.hostMemoryWrite 0 []).wf = false := by decide
theorem test_wf_write_long : (Instr.hostMemoryWrite 0 (List.replicate 257 0#8)).wf = false := by decide
theorem test_wf_write_edge : (Instr.hostMemoryWrite (2 ^ 39 - 1) [0#8, 0#8]).wf = false := by decide
theorem test_wf_read_empty : (Instr.hostMemoryRead 0 0).wf = false := by decide
theorem test_wf_read_edge : (Instr.hostMemoryRead (2 ^ 39) 1).wf = false := by decide
theorem test_wf_port : (Instr.packetForward 14 somePacket).wf = false := by decide
theorem test_wf_packet : (Instr.packetForward 13 somePacket).wf = true := by decide
theorem test_wf_packet_dst : (Instr.packetForward 0 { somePacket with dst := 2 ^ 14 }).wf = false := by decide
theorem test_wf_packet_src : (Instr.packetForward 0 { somePacket with src := 2 ^ 14 }).wf = false := by decide
theorem test_wf_packet_vc : (Instr.packetForward 0 { somePacket with vc := 4 }).wf = false := by decide
theorem test_wf_packet_kind : (Instr.packetForward 0 { somePacket with kind := 8 }).wf = false := by decide
theorem test_wf_packet_long : (Instr.packetForward 0 { somePacket with flits := 6 }).wf = false := by decide
theorem test_wf_task_packet : (Instr.taskPacketArrival somePacket).wf = false := by decide
theorem test_wf_request : (Instr.remoteRequestArrival { somePacket with kind := 3 }).wf = false := by decide
theorem test_wf_response : (Instr.responseArrival somePacket).wf = false := by decide
theorem test_wf_acknowledgement : (Instr.acknowledgementArrival somePacket).wf = false := by decide
theorem test_wf_refusal : (Instr.negativeAckArrival somePacket).wf = false := by decide
theorem test_wf_flit_port : (Instr.linkFlitError 12 true).wf = false := by decide
theorem test_wf_window_port : (Instr.linkErrorWindow 12 0).wf = false := by decide
theorem test_wf_down_port : (Instr.linkPortDown 12).wf = false := by decide
theorem test_wf_restore_port : (Instr.portRestoreCommand 12).wf = false := by decide
theorem test_wf_up_port : (Instr.linkUp 12).wf = false := by decide
theorem test_wf_unretire_core : (Instr.coreUnretireCommand 288).wf = false := by decide
theorem test_wf_window_core : (Instr.coreErrorWindow 288 .pool 0).wf = false := by decide

/-! ## Words that the specification writes out, by chapter -/

/-- Chapter 6: the clause of two words that sets no flag. -/
theorem test_word_clause : decode 0xF0000F20#32 = .ok (.clauseHeader 0#12 0#4 15#4 2#4 0#1) := by decide
/-- R141: REP 4 with steps 2, 1, 1. -/
theorem test_word_rep : decode 0x141A2400#32 = .ok (.rep 3#6 2#3 1#3 1#3) := by decide
/-- R142: GRD !p2. -/
theorem test_word_grd : decode 0x1600000A#32 = .ok (.grd 1#1 2#3) := by decide
/-- R156: WBASE 16. -/
theorem test_word_wbase : decode 0x18000002#32 = .ok (.wbase 2#11) := by decide
/-- R157 and R158: JOIN m3 and WAITM m3. -/
theorem test_word_masks : decode 0x1A000180#32 = .ok (.join 3#7) ∧ decode 0x1A400180#32 = .ok (.waitm 3#7) := by decide
theorem test_word_exit : decode 0x12000000#32 = .ok .exit := by decide
/-- R164: SRD x4, FPFLAGS and SWR FPFLAGS, x4. -/
theorem test_word_status : decode 0x20810007#32 = .ok (.srd 4#7 0#7 7#7) ∧ decode 0x20A10007#32 = .ok (.swr 4#7 0#7 7#7) := by
  decide
theorem test_word_eret : decode 0x20600000#32 = .ok .eret := by decide
/-- R152: BRP p2, +3 and BRNP p2, +3. -/
theorem test_word_branches : decode 0x04080003#32 = .ok (.brp 2#3 3#18) ∧ decode 0x04280003#32 = .ok (.brnp 2#3 3#18) := by
  decide
/-- R152: a branch whose offset is -32 words. -/
theorem test_word_bra : decode 0x0203FFE0#32 = .ok (.bra 0x3FFE0#18) := by decide
/-- R168: ADDI x2, x2, 7. -/
theorem test_word_addi : decode 0x28081007#32 = .ok (.addi 2#7 2#7 7#11) := by decide
/-- R167: ADD.e32 x4, x2, x3. -/
theorem test_word_add : decode 0x24410103#32 = .ok (.add 0#1 0#1 2#2 4#7 2#7 3#7) := by decide
/-- R176: the four words that build a constant. -/
theorem test_word_constant : decode 0x4C0EE407#32 = .ok (.mvi 3#7 0x2E407#18) ∧ decode 0x4E0D258F#32 = .ok (.mvh1 3#7 0x1258F#18)
    ∧ decode 0x500CBAED#32 = .ok (.mvh2 3#7 0x0BAED#18) ∧ decode 0x520C0289#32 = .ok (.mvh3 3#7 0x289#10) := by decide
/-- R173: CMP.lt p1, x2, x3 and CMPI.ltu p0, x5, 100. -/
theorem test_word_compare : decode 0x44404103#32 = .ok (.cmp 0#1 2#3 1#7 2#7 3#7)
    ∧ decode 0x46802864#32 = .ok (.cmpi 4#4 0#3 5#7 100#11) := by decide
/-- R182: FFMA.s x6, x7, x8, and with .rtz. -/
theorem test_word_ffma : decode 0x66218388#32 = .ok (.ffma 0#2 1#2 6#7 7#7 8#7)
    ∧ decode 0x66A18388#32 = .ok (.ffma 1#2 1#2 6#7 7#7 8#7) := by decide
/-- R186: FCMP.lt.s p1, x2, x3. -/
theorem test_word_fcmp : decode 0x6CA04103#32 = .ok (.fcmp 1#2 1#2 1#7 2#7 3#7) := by decide
/-- R194: FRSQ.s x2, x3. -/
theorem test_word_frsq : decode 0x78208180#32 = .ok (.frsq 0#1 2#7 3#7) := by decide
/-- R199: SHFL.e64 x1, x2, x3. -/
theorem test_word_shfl : decode 0x80604103#32 = .ok (.shfl 3#2 1#7 2#7 3#7) := by decide
/-- R203: LSSCAN.add.incl x5, x4, x6. -/
theorem test_word_lsscan : decode 0x89014206#32 = .ok (.lsscan 1#1 0#3 5#7 4#7 6#7) := by decide
/-- R207: LDD x4, [x2+16] and STD x5, [x2+8]. -/
theorem test_word_loads : decode 0x90101010#32 = .ok (.ldd 4#7 2#7 16#11) ∧ decode 0x9A141008#32 = .ok (.std 5#7 2#7 8#11) := by
  decide
/-- R207: the indexed forms of the specification's copy loop. -/
theorem test_word_indexed : decode 0x9840B001#32 = .ok (.ldx 0#1 0#1 2#2 2#7 96#7 1#7)
    ∧ decode 0xA240B081#32 = .ok (.stx 2#2 2#7 97#7 1#7) := by decide
/-- R211 to R213: an atomic add, a reduction and CAS x5, [x2], x6. -/
theorem test_word_atomics : decode 0xAA010103#32 = .ok (.atom 0#4 4#7 2#7 3#7)
    ∧ decode 0xAE004103#32 = .ok (.atred 0#4 1#1 2#7 3#7) ∧ decode 0xB0014106#32 = .ok (.cas 0#1 5#7 2#7 6#7) := by decide
/-- R214: FENCE ACQ at device and system scope. -/
theorem test_word_fences : decode 0xB2800000#32 = .ok (.fence 1#2 0#2) ∧ decode 0xB3400000#32 = .ok (.fence 2#2 2#2) := by decide
/-- R217: BARS 3 and BARI 3, x4. -/
theorem test_word_barriers : decode 0xB6000003#32 = .ok (.bars 3#10) ∧ decode 0xB60C2003#32 = .ok (.bari 4#7 3#10) := by decide
/-- R220: TXB, TXC x4, TXA x5 and TXS x6. -/
theorem test_word_transactions : decode 0xC2000000#32 = .ok .txb ∧ decode 0xC2210000#32 = .ok (.txc 4#7)
    ∧ decode 0xC2400280#32 = .ok (.txa 5#7) ∧ decode 0xC2618000#32 = .ok (.txs 6#7) := by decide
/-- R221 to R223: TLWAIT ctx0, x9; TLRD x10, ctx0; GO.copy x9, ctx2; STQ q0, x4. -/
theorem test_word_engines : decode 0xBA000480#32 = .ok (.tlwait 0#4 9#7) ∧ decode 0xBC028000#32 = .ok (.tlrd 0#4 10#7)
    ∧ decode 0xC0024002#32 = .ok (.goCopy 9#7 2#7) ∧ decode 0xBE000200#32 = .ok (.stq 0#2 4#7) := by decide
/-- R235, R241: MMA a4, x8, x20, paired sparse; ACCRD and ACCWR. -/
theorem test_word_matrix : decode 0xC4210414#32 = .ok (.mma 0#1 0#1 0#1 1#1 4#7 8#7 20#7)
    ∧ decode 0xC4C00414#32 = .ok (.mma 0#1 1#1 1#1 0#1 0#7 8#7 20#7)
    ∧ decode 0xC6228200#32 = .ok (.accrd 0#1 1#3 10#7 4#7 0#2) ∧ decode 0xC8608802#32 = .ok (.accwr 0#1 3#3 2#7 16#7 2#2) := by
  decide
/-- R245, R247, R248. -/
theorem test_word_tasks : decode 0xCC010170#32 = .ok (.spawn 4#7 2#7 112#7) ∧ decode 0xCC210106#32 = .ok (.spawnr 4#7 2#7 6#7)
    ∧ decode 0xCC410100#32 = .ok (.tail 4#7 2#7) := by decide
/-- R249, R250. -/
theorem test_word_claims : decode 0xCE028100#32 = .ok (.claim 0#1 10#7 2#7) ∧ decode 0xCE228100#32 = .ok (.claim 1#1 10#7 2#7)
    ∧ decode 0xD000010C#32 = .ok (.fulfil 2#7 12#7) ∧ decode 0xD0200100#32 = .ok (.relinq 2#7)
    ∧ decode 0xD0400100#32 = .ok (.forget 2#7) := by decide
/-- R251 to R255. -/
theorem test_word_traces : decode 0xD4010103#32 = .ok (.propagate 0#1 4#7 2#7 3#7)
    ∧ decode 0xD4210103#32 = .ok (.propagate 1#1 4#7 2#7 3#7) ∧ decode 0xD6000000#32 = .ok .trcon
    ∧ decode 0xD6410000#32 = .ok (.tdig 4#7) ∧ decode 0xD6610100#32 = .ok (.tstat 4#7 2#7) := by decide
/-- R256, R257. -/
theorem test_word_blocks : decode 0xD800C807#32 = .ok (.rbgive 3#7 16#7 7#3) ∧ decode 0xD8260187#32 = .ok (.rbtake 24#7 3#7 7#3) := by
  decide
/-- R133 to R145, from the encoding: EDIT x5, [x2+8] is major 0x69 of the I format. -/
theorem test_word_edit : decode (0x69#7 ++ 5#7 ++ 2#7 ++ 8#11) = .ok (.edit 5#7 2#7 8#11) := by decide
/-- The same: BRK 5, FCVT code 4 (f32 to bf16), PDOT2 unsigned. -/
theorem test_word_system : decode (0x10#7 ++ 1#4 ++ 0#7 ++ 0#7 ++ 5#7) = .ok (.brk 5#7) := by decide


/-! ## One step on a small state -/

/-- The machine with a word next, and its thread l's x registers 2 to 5 as given. -/
def ready (i : Instr) (x : Nat → List W64) : State :=
  (State.reset.withFetchWord 32 ((encode i).getD 0#32).toNat).modTeam 2 fun t =>
    { t with gangs := t.gangs.map fun g => { g with threads := g.threads.mapIdx fun l th =>
        { th with x := (x l).zipIdx.foldl (fun r v => r.set (2 + v.2) v.1) th.x, trapVec := 0x4000#64 } } }

/-- What a step leaves satisfies p. -/
def leaves (o : Host.Outcome State Fault Refusal) (p : State → Bool) : Bool :=
  match o with
  | .next t => p t
  | _ => false

/-- A thread of the one gang. -/
def lane (t : State) (l : Nat) : Thread := ((t.thread? 2 0 l).getD Thread.blank)

/-- After one step of i, with the same registers in every thread, register 4 of thread 7 holds v. -/
def gives (i : Instr) (x : List W64) (v : W64) : Bool :=
  leaves (step (ready i fun _ => x)) fun t => (lane t 7).x.getD 4 0#64 == v

/-- R167: bytes wrap on their own. -/
theorem test_add_wraps : gives (.add 0#1 0#1 0#2 4#7 2#7 3#7) [0x01FF7F00#64, 0x02010103#64] 0x03008003#64 = true := by decide
/-- R167: signed saturation. -/
theorem test_add_saturates : gives (.add 0#1 1#1 1#2 4#7 2#7 3#7) [0x80007FFF#64, 0xFFFF0001#64] 0x80007FFF#64 = true := by decide
theorem test_sub_saturates : gives (.sub 1#1 1#1 2#2 4#7 2#7 3#7) [5#64, 6#64] 0#64 = true := by decide
theorem test_mul_high : gives (.mul 0#1 1#1 3#2 4#7 2#7 3#7) [0xFFFFFFFFFFFFFFFF#64, 3#64] 0xFFFFFFFFFFFFFFFF#64 = true := by decide
theorem test_mad : gives (.mad 2#2 4#7 2#7 3#7) [0x100000002#64, 0x300000004#64, 0x500000006#64] 0x80000000E#64 = true := by decide
theorem test_min_unsigned : gives (.min 1#1 0#2 4#7 2#7 3#7) [0x80FF#64, 0x7F01#64] 0x7F01#64 = true := by decide
theorem test_max_signed : gives (.max 0#1 0#2 4#7 2#7 3#7) [0x80FF#64, 0x7F01#64] 0x7F01#64 = true := by decide
theorem test_addi_negative : gives (.addi 4#7 2#7 0x7FF#11) [0#64] 0xFFFFFFFFFFFFFFFF#64 = true := by decide
theorem test_abs_least : gives (.abs 4#7 2#7 0#2) [0x80FE#64] 0x8002#64 = true := by decide
theorem test_clz : gives (.clz 4#7 2#7 1#2) [0x0001000080000FFF#64] 0x000F001000000004#64 = true := by decide
theorem test_ctz_zero : gives (.ctz 4#7 2#7 3#2) [0#64] 64#64 = true := by decide
theorem test_brev : gives (.brev 4#7 2#7 0#2) [0x0180#64] 0x8001#64 = true := by decide
theorem test_bswap : gives (.bswap 4#7 2#7 2#2) [0x0102030405060708#64] 0x0403020108070605#64 = true := by decide
theorem test_andn : gives (.andn 4#7 2#7 3#7) [0xFF#64, 0x0F#64] 0xF0#64 = true := by decide
theorem test_xori : gives (.xori 4#7 2#7 0x400#11) [0#64] 0xFFFFFFFFFFFFFC00#64 = true := by decide
/-- R171: an amount of the width or more shifts everything out, or fills with the sign. -/
theorem test_shl_width : gives (.shl 0#2 4#7 2#7 3#7) [0x0101#64, 0x0708#64] 0x8000#64 = true := by decide
theorem test_sar_width : gives (.sar 0#2 4#7 2#7 3#7) [0x8040#64, 0xFF01#64] 0xFF20#64 = true := by decide
theorem test_rol_modulo : gives (.rol 0#2 4#7 2#7 3#7) [0x8181#64, 0x0901#64] 0x0303#64 = true := by decide
/-- R172: a field that leaves the register ends at its top. -/
theorem test_bfx_edge : gives (.bfx 1#1 4#7 2#7 3#7) [0xA000000000000000#64, 0x43C#64] 0xFFFFFFFFFFFFFFFA#64 = true := by decide
theorem test_bfi : gives (.bfi 4#7 2#7 3#7) [0xAB#64, 0x204#64, 0xFFFFFF#64] 0xFFFABF#64 = true := by decide
theorem test_lea : gives (.lea 3#2 4#7 2#7 3#7) [1#64, 0x2000000000000001#64] 9#64 = true := by decide
theorem test_mvh3 : gives (.mvh3 4#7 0x289#10) [0#64, 0#64, 0x3FFFFFFFFFFFFF#64] 0xA27FFFFFFFFFFFFF#64 = true := by decide
/-- R173: a compare sets its predicate and no other. -/
theorem test_cmp_signed : leaves (step (ready (.cmp 1#1 2#3 1#7 2#7 3#7) fun _ => [0xFFFFFFFF#64, 0#64]))
    (fun t => (lane t 0).p == 2#8) = true := by decide
theorem test_psrr : gives (.psrr 1#2 4#7 2#7 3#7) [0xFFFB0005#64, 1#64] 0xFFFE0003#64 = true := by decide
theorem test_pnarrow : gives (.pnarrow 1#1 1#2 4#7 2#7 3#7) [0xFFFF0100#64, 0x0042#64] 0x00000042000000FF#64 = true := by decide
/-- R182: 1 + 2^-24 is a tie in F32, which goes to even. -/
theorem test_fadd_tie : gives (.fadd 0#2 1#2 4#7 2#7 3#7) [0x3F800000#64, 0x33800000#64] 0x3F800000#64 = true := by decide
theorem test_fadd_up : gives (.fadd 3#2 1#2 4#7 2#7 3#7) [0x3F800000#64, 0x33800000#64] 0x3F800001#64 = true := by decide
/-- R183: infinity less infinity is invalid. -/
theorem test_fsub_invalid : leaves (step (ready (.fsub 0#2 0#2 4#7 2#7 3#7) fun _ => [0x7FF0000000000000#64, 0x7FF0000000000000#64]))
    (fun t => (lane t 3).x.getD 4 0#64 == 0x7FF8000000000000#64 && (lane t 3).fp == 1#5) = true := by decide
theorem test_fmul_f16 : gives (.fmul 0#2 2#2 4#7 2#7 3#7) [0x3C00#64, 0xC000#64] 0xC000#64 = true := by decide
/-- R182: one rounding: (1 + 2^-23)^2 - (1 + 2^-22) in F32 is 2^-46. -/
theorem test_ffma_once : gives (.ffma 0#2 1#2 4#7 2#7 3#7) [0x3F800001#64, 0x3F800001#64, 0xBF800002#64] 0x28800000#64 = true := by decide
theorem test_fmin_nan : gives (.fmin 0#1 1#2 4#7 2#7 3#7) [0x7FC00000#64, 0xBF800000#64] 0xBF800000#64 = true := by decide
theorem test_fneg_nan : gives (.fneg 0#2 4#7 2#7) [0xFFF8000000000001#64] 0x7FF8000000000000#64 = true := by decide
theorem test_ftoi : gives (.ftoi 0#2 0#2 4#7 2#7 0#1) [0xC004000000000000#64] 0xFFFFFFFFFFFFFFFE#64 = true := by decide
theorem test_frnd_up : gives (.frnd 3#2 0#2 4#7 2#7) [0x3FF0000000000001#64] 0x4000000000000000#64 = true := by decide
theorem test_itof : gives (.itof 0#2 0#2 4#7 2#7 0#1) [0xFFFFFFFFFFFFFFFF#64] 0xBFF0000000000000#64 = true := by decide
theorem test_fcls_least : gives (.fcls 0#2 4#7 2#7) [0x8000000000000001#64] 16#64 = true := by decide
/-- R199: each thread takes register 2 of the thread above it. -/
theorem test_shfl : leaves (step (ready (.shfl 3#2 4#7 2#7 3#7) fun l => [BitVec.ofNat 64 (100 + l), BitVec.ofNat 64 (8 * (l + 1))]))
    (fun t => (lane t 5).x.getD 4 0#64 == 106#64 && (lane t 31).x.getD 4 0#64 == 100#64) = true := by decide
/-- R202: an exclusive sum. -/
theorem test_lscan : leaves (step (ready (.lscan 0#1 0#3 4#7 2#7 3#2) fun l => [BitVec.ofNat 64 l]))
    (fun t => (lane t 0).x.getD 4 9#64 == 0#64 && (lane t 5).x.getD 4 0#64 == 10#64) = true := by decide
theorem test_ballot : leaves (step (ready (.ballot 4#7 2#7) fun l => [if l % 8 = 1 then 5#64 else 0#64]))
    (fun t => (lane t 0).x.getD 4 0#64 == 0x02020202#64) = true := by decide
theorem test_elect : leaves (step (ready (.elect 2#7) fun _ => [])) (fun t => (lane t 0).p == 4#8 && (lane t 1).p == 0#8) = true := by
  decide
theorem test_join : leaves (step (ready (.join 3#7) fun _ => []))
    (fun t => ((t.gang? 2 0).map fun g => g.masks.getD 3 0#32) == some 0xFFFFFFFF#32) = true := by decide
/-- R152: the target counts words from the header at 0x10000. -/
theorem test_bra : leaves (step (ready (.bra 0x3FFFE#18) fun _ => [])) (fun t => (lane t 0).pc == 0xFFF8#64) = true := by decide
theorem test_brnz : leaves (step (ready (.brnz 2#7 16#18) fun l => [if l = 0 then 0#64 else 1#64]))
    (fun t => (lane t 0).pc == 0x10008#64 && (lane t 1).pc == 0x10040#64) = true := by decide
/-- R153: the return address goes to the store path, and RETDEPTH grows. -/
theorem test_call : leaves (step (ready (.call 16#18) fun _ => []))
    (fun t => (lane t 0).retDepth == 1 && (lane t 0).pc == 0x10040#64
      && ((t.core 0).stores.head?.map fun x => (x.pa, x.data)) == some (0x20000, bytesOfNat 8 0x10008)) = true := by decide
theorem test_exit : leaves (step (ready .exit fun _ => [])) (fun t => (lane t 9).exited) = true := by decide
/-- R162, R299: BRK enters the handler at 64 times TRAP's code. -/
theorem test_brk : leaves (step (ready (.brk 5#7) fun _ => []))
    (fun t => (lane t 0).trapDepth && (lane t 0).trapInfo == 0x8000000000000005#64 && (lane t 0).trapPc == 0x10008#64) = true := by decide
/-- R145: a word of a reserved major. -/
theorem test_illegal : leaves (step ((State.reset.withFetchWord 32 0).modTeam 2 fun t =>
    { t with gangs := t.gangs.map fun g => { g with threads := g.threads.map fun th => { th with trapVec := 0x4000#64 } } }))
    (fun t => (lane t 0).trapCause == 0x101#64 && (lane t 0).pc == 0x4040#64) = true := by decide
theorem test_window : leaves (step (ready (.mov 95#7 2#7) fun _ => [7#64]))
    (fun t => (lane t 0).x.getD 95 0#64 == 7#64) = true := by decide
theorem test_srd_depth : gives (.srd 4#7 0#7 3#7) [] 0x4000#64 = true := by decide
theorem test_swr_flags : leaves (step (ready (.swr 2#7 0#7 7#7) fun _ => [9#64])) (fun t => (lane t 0).fp == 9#5) = true := by decide
/-- R141: REP starts at repetition 0 of the word after it. -/
theorem test_rep : leaves (step (ready (.rep 3#6 0#3 0#3 0#3) fun _ => [])) (fun t => (lane t 0).repState == 512#64) = true := by decide
/-- R86: a store stays in the store path, in ascending lanes. -/
theorem test_std : leaves (step (ready (.std 3#7 2#7 8#11) fun l => [BitVec.ofNat 64 (0x1000 + 16 * l), 0x1122#64]))
    (fun t => ((t.core 0).stores.map fun x => x.pa).take 2 == [0x1008, 0x1018] && t.mem.read 0x1008 == 0#8) = true := by decide
/-- R87: a load takes its place among its thread's accesses. -/
theorem test_ldw : leaves (step (ready (.ldw 4#7 2#7 4#11) fun _ => [0x1000#64])) (fun t => (lane t 7).memSeq == 1) = true := by decide
/-- R313: a load at an odd address. -/
theorem test_ldh_align : leaves (step (ready (.ldh 4#7 2#7 1#11) fun _ => [0x1000#64]))
    (fun t => (lane t 0).trapCause == 0x104#64 && (lane t 0).trapInfo == 0x1001#64) = true := by decide
theorem test_sts : leaves (step (ready (.sts 1#2 3#7 2#7 112#7) fun l => [BitVec.ofNat 64 (2 * l), BitVec.ofNat 64 l]))
    (fun t => ((t.team? 2).map fun u => u.scratch.readNat 62 2) == some 31) = true := by decide
theorem test_atom : leaves (step (ready (.atom 0#4 4#7 2#7 3#7) fun _ => [0x1000#64, 1#64])) (fun t => t.ops.length == 32) = true := by
  decide
theorem test_bara : leaves (step (ready (.bara 1#10) fun _ => []))
    (fun t => ((t.team? 2).bind fun u => u.barriers[1]?.map fun b => (b.expected, b.arrivals, b.episode)) == some (32, 0, 1)) = true := by
  decide
theorem test_txb : leaves (step (ready .txb fun _ => [])) (fun t => ((t.gang? 2 0).bind Gang.tx).isSome) = true := by decide
theorem test_stq : leaves (step (ready (.stq 1#2 2#7) fun l => [BitVec.ofNat 64 l]))
    (fun t => ((t.team? 2).map fun u => u.queueRegs) == some [0#64, 31#64, 0#64, 0#64]) = true := by decide
theorem test_accz : leaves (step ((ready (.accz 0#1 1#7 0#7) fun _ => []).modTeam 2 fun u => { u with acc := u.acc.write 1024 7#8 }))
    (fun t => ((t.team? 2).map fun u => u.acc.read 1024) == some 0#8) = true := by decide
theorem test_tail : leaves (step (ready (.tail 4#7 2#7) fun _ => [0x8100#64]))
    (fun t => (lane t 0).x.getD 4 0#64 == 1#64 && (lane t 31).x.getD 4 0#64 == 32#64) = true := by decide
/-- R126: the first CLAIM of a name makes its task the maker, and the rest queue behind it. -/
theorem test_claim : leaves (step (ready (.claim 1#1 4#7 2#7) fun l => [BitVec.ofNat 64 l, 5#64]))
    (fun t => t.claims.length == 32 && t.claims.all fun e => e.maker == some 1) = true := by decide
theorem test_tstat : gives (.tstat 4#7 2#7) [0x8000#64] 0xFF#64 = true := by decide
theorem test_rbgive : leaves (step (ready (.rbgive 1#7 2#7 0#3) fun l => [BitVec.ofNat 64 (l + 1)]))
    (fun t => ((t.team? 2).map fun u => (u.scratch.readNat (2048 + 64 * 3) 8, u.blocks.getD 1 none))
      == some (4, some { lanes := 0xFFFFFFFF#32, count := 1 })) = true := by decide

/-! ## States that meet the hypotheses of the statements -/

/-- The state of `ready`, with its word issuing. -/
def issuing (i : Instr) (x : Nat → List W64) : State := { ready i x with agenda := none, cur := some { team := 2, gang := 0, path := 2 } }

/-- A change of the one team, of its gang, of that gang's threads, of its path. -/
def onTeam (s : State) (f : Team → Team) : State := s.modTeam 2 f
def onGang (s : State) (f : Gang → Gang) : State := s.modGang 2 0 f
def onThreads (s : State) (f : Thread → Thread) : State := onGang s fun g => { g with threads := g.threads.map f }
def onPath (s : State) (f : Path → Path) : State := onGang s fun g => { g with paths := g.paths.map f }
def onLaunch (s : State) (f : Launch → Launch) : State := { s with launches := s.launches.map f }

/-- The same with only lane 0 on the path. -/
def alone (s : State) : State := onPath s fun p => { p with lanes := 1#32 }

/-- The same with words after the one that issues. -/
def longer (s : State) : State := onPath s fun p => { p with words := p.words ++ [0x20000000#32, 0x20000000#32] }

theorem at_issue {s : State} {P : Issue → Prop} (h : s.issue.isSome = true) (k : P (s.issue.get h)) :
    ∃ i, s.issue = some i ∧ P i := ⟨_, (Option.some_get h).symm, k⟩

/-- The threads that a test looks at are all that there are. -/
theorem calm_of {s : State} {u : Nat} (h : ∀ t ∈ s.teams, ∀ g ∈ t.gangs, ∀ th ∈ g.threads, th.mayConverge = false) : s.calm u := by
  intro g l th e
  unfold State.thread? State.gang? State.team? at e
  cases a : s.teams.find? fun t => t.uid == u with
  | none => simp [a] at e
  | some t =>
    cases b : t.gangs[g]? with
    | none => simp [a, b] at e
    | some x =>
      simp only [a, b, Option.bind_some] at e
      exact h t (List.mem_of_find?_eq_some a) x (List.mem_of_getElem? b) th (List.mem_of_getElem? e)

/-- A state whose word names x2, x3 and x4. -/
def words : State := issuing (.mov 4#7 2#7) fun l => [BitVec.ofNat 64 l, 3#64, 5#64]

theorem words_operands : ∃ i, words.issue = some i ∧ i.writes 4#7 ∧ i.reads [2#7, 3#7, 4#7] :=
  at_issue (by decide) (by dsimp only [Issue.writes, Issue.reads, Lane.writable, Lane.readable]; decide)

theorem test_meets_IntegerArithmetic : ∃ i, words.issue = some i ∧ i.writes 4#7 ∧ i.reads [2#7, 3#7, 4#7] := words_operands
theorem calm_words : words.calm 2 := calm_of (by decide)

theorem finds_of {s : State} {i : Issue} {need : Need} {n : Nat} {addr : Nat → W64} {pa : Nat → Nat} (leaf : W64)
    (h : ∀ l ∈ i.active, (addr l).toNat % n = 0 ∧ isRemote (pa l) = false
      ∧ s.translate i.team.core i.team.ctx (addr l) need = .ok (pa l) leaf) : s.finds i need n addr pa := fun l hl =>
  ⟨(h l hl).1, fun k => by simp [(h l hl).2.1] at k, leaf, (h l hl).2.2⟩

theorem reaches_of {s : State} {i : Issue} {need : Need} {n : Nat} {addr : Nat → W64} {pa : Nat → Nat} (leaf : W64)
    (t : pteTracked leaf = false) (h : ∀ l ∈ i.active, (addr l).toNat % n = 0 ∧ isRemote (pa l) = false
      ∧ s.translate i.team.core i.team.ctx (addr l) need = .ok (pa l) leaf) : s.reaches i need n addr pa :=
  ⟨finds_of leaf h, fun l hl leaf' e => by
    rw [(h l hl).2.2] at e; injection e with _ e; exact e ▸ t⟩


/-! ### Words on registers -/

theorem test_meets_AddressArithmetic : ∃ i, words.issue = some i ∧ i.writes 4#7 ∧ i.reads [2#7, 3#7] := at_issue (by decide) (by dsimp only [Issue.writes, Issue.reads, Lane.writable, Lane.readable, Issue.free, Issue.lastWord, Issue.unheld, Thread.hasHandler, Core.clean]; decide)
theorem test_meets_LogicWords : ∃ i, words.issue = some i ∧ i.writes 112#7 ∧ i.reads [2#7, 3#7] := at_issue (by decide) (by dsimp only [Issue.writes, Issue.reads, Lane.writable, Lane.readable, Issue.free, Issue.lastWord, Issue.unheld, Thread.hasHandler, Core.clean]; decide)
theorem test_meets_SelectWord : ∃ i, words.issue = some i ∧ i.writes 4#7 ∧ i.reads [2#7, 3#7] := at_issue (by decide) (by dsimp only [Issue.writes, Issue.reads, Lane.writable, Lane.readable, Issue.free, Issue.lastWord, Issue.unheld, Thread.hasHandler, Core.clean]; decide)
theorem test_meets_WholeRegisterWords : ∃ i, words.issue = some i ∧ i.writes 4#7 ∧ i.reads [2#7, 3#7, 4#7] := words_operands
theorem test_meets_UnaryAndShiftWords : ∃ i, words.issue = some i ∧ i.writes 4#7 ∧ i.reads [2#7, 3#7] :=
  at_issue (by decide) (by dsimp only [Issue.writes, Issue.reads, Lane.writable, Lane.readable, Issue.free, Issue.lastWord, Issue.unheld, Thread.hasHandler, Core.clean]; decide)
theorem test_meets_PredicateWords : ∃ i, words.issue = some i ∧ i.reads [2#7, 3#7] ∧ (7#7).toNat < 8 ∧ (7#4).toNat < 8 :=
  at_issue (by decide) (by dsimp only [Issue.writes, Issue.reads, Lane.writable, Lane.readable, Issue.free, Issue.lastWord, Issue.unheld, Thread.hasHandler, Core.clean]; decide)
theorem test_meets_PackedWords : ∃ i, words.issue = some i ∧ i.writes 4#7 ∧ i.reads [2#7, 3#7, 4#7] ∧ 1#2 ≠ 0#2 ∧ 1#2 ≠ 3#2 :=
  at_issue (by decide) (by dsimp only [Issue.writes, Issue.reads, Lane.writable, Lane.readable, Issue.free, Issue.lastWord, Issue.unheld, Thread.hasHandler, Core.clean]; decide)
theorem test_meets_FloatArithmetic : ∃ i, words.issue = some i ∧ i.writes 4#7 ∧ i.reads [2#7, 3#7, 4#7] := words_operands
theorem test_meets_FloatSelectAndCompare : ∃ i, words.issue = some i ∧ i.writes 4#7 ∧ i.reads [2#7, 3#7] ∧ (7#7).toNat < 8 :=
  at_issue (by decide) (by dsimp only [Issue.writes, Issue.reads, Lane.writable, Lane.readable, Issue.free, Issue.lastWord, Issue.unheld, Thread.hasHandler, Core.clean]; decide)
/-- Slot 7 holds a format of 8 bits. -/
def slotted : State := onLaunch words fun la => { la with slots := la.slots.set 7 4#64 }

theorem test_meets_ConversionAndFunctionWords : ∃ i, slotted.issue = some i ∧ i.writes 4#7 ∧ i.reads [2#7]
    ∧ Instr.wf (.fcvt 14#4 4#7 2#7 3#2 7#3) = true ∧ slotWidth (field (i.launch.slot 7).toNat 0 4) < 32 :=
  at_issue (by decide) (by dsimp only [Issue.writes, Issue.reads, Lane.writable, Lane.readable, Issue.free, Issue.lastWord, Issue.unheld, Thread.hasHandler, Core.clean]; decide)
theorem test_meets_RoundingKeepsValues : e4m3 ∈ [f64, f32, f16, bf16, e4m3, e5m2] ∧ 0x7E < 2 ^ e4m3.width
    ∧ (e4m3.decode 0x7E).isNan = false := by decide
theorem test_meets_ConversionValues : slotWidth ((0#64).toNat % 16) = 64 ∧ slotWidth ((9#64).toNat % 16) * (2 * 1 + 2) ≤ 64
    ∧ slotWidth ((2#64).toNat % 16) * (2 * 1 + 2) ≤ 64 := by decide

/-- The numbers that small F32 patterns are. -/
theorem real_of {b m : Nat} {n : Bool} {e : Int} {q : ℚ} (h : f32.decode b = .fin n m e) (k : (if n then -1 else 1) * m * 2 ^ e = q) :
    Fp.real (f32.decode b) = q := by rw [h]; exact k

/-- 2, 0.5, 4, 128, -160 and -16 of Table 8.6's rows. -/
theorem test_meets_FunctionValues :
    f32.decode 0x7FC00000 = .nan false ∧ f32.decode 0xFF800000 = .inf true ∧ f32.decode 0x7F800000 = .inf false
    ∧ f32.decode 0x80000000 = .fin true 0 (-149) ∧ f32.decode 0 = .fin false 0 (-149)
    ∧ (Fp.real (f32.decode 0x40000000) = 2 ∧ Fp.real (f32.decode 0x3F000000) = 1 / 2 ∧ Fp.real (f32.decode 0x40800000) = 4)
    ∧ Fp.real (f32.decode 0x43000000) = 128 ∧ Fp.real (f32.decode 0xC3200000) = -160 ∧ Fp.real (f32.decode 0xC1800000) = -16 :=
  ⟨by decide, by decide, by decide, by decide, by decide,
    ⟨real_of (m := 2 ^ 23) (n := false) (e := -22) (by decide) (by norm_num),
      real_of (m := 2 ^ 23) (n := false) (e := -24) (by decide) (by norm_num),
      real_of (m := 2 ^ 23) (n := false) (e := -21) (by decide) (by norm_num)⟩,
    real_of (m := 2 ^ 23) (n := false) (e := -16) (by decide) (by norm_num),
    real_of (m := 10485760) (n := true) (e := -16) (by decide) (by norm_num),
    real_of (m := 2 ^ 23) (n := true) (e := -19) (by decide) (by norm_num)⟩

/-- 2 has a reciprocal in range, and 2^-149 has none. -/
theorem test_meets_ReciprocalAndRoots :
    (∃ m e, f32.decode 0x40000000 = .fin false m e ∧ m ≠ 0 ∧ |1 / Fp.real (f32.decode 0x40000000)| ≤ Fp.real (f32.decode f32.maxBits))
    ∧ ∃ m e, f32.decode 1 = .fin false m e ∧ m ≠ 0 ∧ Fp.real (f32.decode f32.maxBits) < |1 / Fp.real (f32.decode 1)| := by
  have top : Fp.real (f32.decode f32.maxBits) = (2 ^ 24 - 1) * 2 ^ 104 :=
    real_of (m := 2 ^ 24 - 1) (n := false) (e := 104) (by decide) (by norm_num)
  refine ⟨⟨2 ^ 23, -22, by decide, by decide, ?_⟩, ⟨1, -149, by decide, by decide, ?_⟩⟩
  · rw [top, real_of (q := 2) (m := 2 ^ 23) (n := false) (e := -22) (by decide) (by norm_num)]; norm_num
  · rw [top, real_of (q := 1 / 2 ^ 149) (m := 1) (n := false) (e := -149) (by decide) (by norm_num)]; norm_num

theorem test_meets_LaneMoves : ∃ i, words.issue = some i ∧ i.writes 4#7 ∧ i.reads [2#7, 3#7] := at_issue (by decide) (by dsimp only [Issue.writes, Issue.reads, Lane.writable, Lane.readable, Issue.free, Issue.lastWord, Issue.unheld, Thread.hasHandler, Core.clean]; decide)
theorem test_meets_ScanWords : ∃ i, words.issue = some i ∧ i.writes 4#7 ∧ i.reads [2#7, 3#7] ∧ (7#3 = 7#3 → 3#2 = 3#2) :=
  at_issue (by decide) (by dsimp only [Issue.writes, Issue.reads, Lane.writable, Lane.readable, Issue.free, Issue.lastWord, Issue.unheld, Thread.hasHandler, Core.clean]; decide)
theorem test_meets_ScanTable : 1#3 ≠ 7#3 ∧ [0x80#8] ≠ [] := by decide

/-! ### Control -/

/-- Register 2 holds an aligned address in each thread. -/
def jumping : State := issuing (.jmpi 2#7) fun l => [BitVec.ofNat 64 (0x2000 + 4 * l)]

theorem test_meets_Transfers : ∃ i, jumping.issue = some i ∧ i.lastWord ∧ i.replays = false ∧ i.reads [2#7]
    ∧ (∀ l ∈ i.active, canonical (i.val l 2#7) = true ∧ i.val l 2#7 &&& 3#64 = 0#64)
    ∧ let label := i.path.header + ((0x3FFFF#18).signExtend 64) * 4#64
      canonical label = true ∧ label &&& 3#64 = 0#64 := at_issue (by decide) (by dsimp only [Issue.writes, Issue.reads, Lane.writable, Lane.readable, Issue.free, Issue.lastWord, Issue.unheld, Thread.hasHandler, Core.clean]; decide)

/-- At the header of its clause, with flag 2 set. -/
def heading : State := onGang (onPath words fun p => { p with pos := 0 }) fun g => { g with flags := 4#12 }

theorem test_meets_HeadersAndPrefixes :
    (∃ i, heading.issue = some i ∧ heading.calm i.cursor.team ∧ i.free ∧ i.path.pos = 0 ∧ 2 ≤ i.path.words.length
      ∧ i.path.rep = none ∧ i.path.prefixes = 0
      ∧ (∀ f < 12, ((8#12).getLsbD f || ((0#4).toNat == f) || ((15#4).toNat == f)) = true → i.gang.flags.getLsbD f = false)
      ∧ ∃ f < 12, ((4#12).getLsbD f || ((15#4).toNat == f) || ((15#4).toNat == f)) = true ∧ i.gang.flags.getLsbD f = true)
    ∧ (∃ i, (longer words).issue = some i ∧ i.path.start = 0 ∧ i.repTrap 0 0 0 64 = none)
    ∧ (onPath words fun p => { p with guard := some (2#3, 1#1) }).issue.map (fun i => i.path.guard) = some (some (2#3, 1#1))
    ∧ ((0x12#7).toNat = 0x12 ∧ (127#7).toNat + 63 * 0 < 128 ∧ (64#7).toNat + 63 * 1 < 128) :=
  ⟨at_issue (by decide) ⟨calm_of (by decide), by dsimp only [Issue.writes, Issue.reads, Lane.writable, Lane.readable, Issue.free, Issue.lastWord, Issue.unheld, Thread.hasHandler, Core.clean]; decide⟩, at_issue (by decide) (by decide), by decide, by decide⟩

/-- Under a REP of two, at its first repetition or its last. -/
def repeating (done : Nat) : State :=
  onPath (longer words) fun p => { p with rep := some { count := 2, dStep := 1, aStep := 1, bStep := 1, done } }

theorem test_meets_Repetitions :
    (∃ i, (repeating 0).issue = some i ∧ i.replays = false ∧ (repeating 0).calm i.cursor.team ∧ i.free
      ∧ i.path.rep = some { count := 2, dStep := 1, aStep := 1, bStep := 1, done := 0 } ∧ i.writes 4#7 ∧ i.reads [2#7]
      ∧ i.path.pos + 1 < i.path.words.length)
    ∧ ∃ i, (repeating 1).issue = some i ∧ i.replays = false ∧ (repeating 1).calm i.cursor.team ∧ i.free
      ∧ i.path.rep = some { count := 2, dStep := 1, aStep := 1, bStep := 1, done := 1 } ∧ i.writes 4#7 ∧ i.reads [2#7]
      ∧ i.path.pos + 1 < i.path.words.length :=
  ⟨at_issue (by decide) ⟨by decide, calm_of (by decide), by dsimp only [Issue.writes, Issue.reads, Lane.writable, Lane.readable, Issue.free, Issue.lastWord, Issue.unheld, Thread.hasHandler, Core.clean]; decide⟩, at_issue (by decide) ⟨by decide, calm_of (by decide), by dsimp only [Issue.writes, Issue.reads, Lane.writable, Lane.readable, Issue.free, Issue.lastWord, Issue.unheld, Thread.hasHandler, Core.clean]; decide⟩⟩

/-- Words stand after the one that issues. -/
def before (ws : List Instr) : State := onPath words fun p => { p with words := p.words ++ ws.map fun w => (encode w).getD 0#32 }

/-- The word that a REP would repeat, first or behind a GRD, and fields that leave the window at a repetition. -/
theorem test_meets_RepSteps :
    (∃ i, (before [.add 0#1 0#1 0#2 90#7 2#7 3#7]).issue = some i ∧ i.replays = false ∧ (∀ l ∈ i.active, (i.thread l).hasHandler)
      ∧ decode (i.path.words.getD (i.path.pos + 1) 0#32) = .ok (.add 0#1 0#1 0#2 90#7 2#7 3#7)
      ∧ 2#3 ≠ 0#3 ∧ 96 ≤ (90#7).toNat + (3#6).toNat * (2#3).toNat ∧ ∀ j < 3, (90#7).toNat + j * (2#3).toNat < 96)
    ∧ (∃ i, (before [.grd 0#1 0#3, .and 2#7 95#7 3#7]).issue = some i ∧ i.replays = false
      ∧ decode (i.path.words.getD (i.path.pos + 1) 0#32) = .ok (.grd 0#1 0#3)
      ∧ decode (i.path.words.getD (i.path.pos + 2) 0#32) = .ok (.and 2#7 95#7 3#7)
      ∧ 96 ≤ (95#7).toNat + (1#6).toNat * (1#3).toNat)
    ∧ (∃ i, (before [.addi 2#7 3#7 1#11]).issue = some i
      ∧ decode (i.path.words.getD (i.path.pos + 1) 0#32) = .ok (.addi 2#7 3#7 1#11) ∧ 1#3 ≠ 0#3)
    ∧ (∃ i, (before [.mvi 2#7 1#18]).issue = some i ∧ decode (i.path.words.getD (i.path.pos + 1) 0#32) = .ok (.mvi 2#7 1#18))
    ∧ (∃ i, (before [.cmp 0#1 0#3 1#7 2#7 3#7]).issue = some i
      ∧ decode (i.path.words.getD (i.path.pos + 1) 0#32) = .ok (.cmp 0#1 0#3 1#7 2#7 3#7))
    ∧ ∃ i, (before [.mget 2#7 3#7]).issue = some i ∧ decode (i.path.words.getD (i.path.pos + 1) 0#32) = .ok (.mget 2#7 3#7) :=
  ⟨at_issue (by decide) (by dsimp only [Issue.writes, Issue.reads, Lane.writable, Lane.readable, Issue.free, Issue.lastWord, Issue.unheld, Thread.hasHandler, Core.clean]; decide), at_issue (by decide) (by decide), at_issue (by decide) (by decide), at_issue (by decide) (by decide),
    at_issue (by decide) (by decide), at_issue (by decide) (by decide)⟩

/-- Threads that own 64 registers. -/
def small : State := onThreads words fun th => { th with x := th.x.take 64 }

theorem test_meets_WindowBase :
    (∃ i, words.issue = some i ∧ (31#11).toNat < 32 ∧ ∀ l ∈ i.active, 8 * 31 < (i.lane l).alloc)
    ∧ (∃ i, words.issue = some i ∧ 0 ∈ i.active ∧ i.replays = false ∧ (i.thread 0).hasHandler ∧ 32 ≤ (32#11).toNat)
    ∧ ∃ i, small.issue = some i ∧ 0 ∈ i.active ∧ i.replays = false ∧ (i.thread 0).hasHandler ∧ (i.lane 0).alloc ≤ 8 * (8#11).toNat :=
  ⟨at_issue (by decide) (by decide), at_issue (by decide) (by dsimp only [Issue.writes, Issue.reads, Lane.writable, Lane.readable, Issue.free, Issue.lastWord, Issue.unheld, Thread.hasHandler, Core.clean]; decide), at_issue (by decide) (by dsimp only [Issue.writes, Issue.reads, Lane.writable, Lane.readable, Issue.free, Issue.lastWord, Issue.unheld, Thread.hasHandler, Core.clean]; decide)⟩

/-- The same under a DET launch. -/
def deterministic (s : State) : State := onLaunch s fun la => { la with control := la.control ||| 2#64 }

theorem test_meets_Operands : (∃ i, words.issue = some i ∧ i.launch.traced = false ∧ i.launch.det = false ∧ (95#7).toNat < 96
      ∧ 96 ≤ (111#7).toNat ∧ (111#7).toNat < 112)
    ∧ ∃ i, (deterministic words).issue = some i ∧ i.launch.det = true :=
  ⟨at_issue (by decide) (by decide), at_issue (by decide) (by decide)⟩

theorem test_meets_FieldTraps : ∃ i, (alone small).issue = some i ∧ i.replays = false ∧ i.active = [0] ∧ (i.thread 0).hasHandler
    ∧ (117 ≤ (117#7).toNat ∧ (112#7).toNat ≤ 112) ∧ (112 < (113#7).toNat ∧ (116#7).toNat < 117)
    ∧ ((64#7).toNat < 96 ∧ (i.thread 0).x.length ≤ (i.thread 0).winBase + (64#7).toNat) ∧ 96 ≤ (96#7).toNat ∧ (96#7).toNat < 117 :=
  at_issue (by decide) (by dsimp only [Issue.writes, Issue.reads, Lane.writable, Lane.readable, Issue.free, Issue.lastWord, Issue.unheld, Thread.hasHandler, Core.clean]; decide)

theorem test_meets_ExitEndsThreads : words.issue.isSome = true := by decide

/-- Lanes 0 to 2 are members of mask 3, and lane 2 waits on it already or not. -/
def joining (waits : Bool) : State :=
  onGang (onPath words fun p => { p with lanes := 3#32 }) fun g =>
    { g with masks := g.masks.set 3 7#32
             threads := g.threads.mapIdx fun l th => if l = 2 ∧ waits then { th with blocked := .waitm 3 } else th }

theorem test_meets_MaskWords :
    (∃ i, (joining true).issue = some i ∧ i.replays = false ∧ (3#7).toNat < 12 ∧ i.gang.masks.length = 12 ∧ i.reads [2#7, 3#7] ∧ i.writes 4#7
      ∧ i.active.getLast? = some 1 ∧ (joining true).calm i.cursor.team ∧ i.free
      ∧ ∀ k < 32, (7#32).getLsbD k = true → (i.thread k).blocked = .waitm 3 ∨ k ∈ i.active)
    ∧ ∃ i, (joining false).issue = some i ∧ i.replays = false ∧ i.gang.masks.length = 12 ∧ (joining false).calm i.cursor.team ∧ i.free
      ∧ ∃ k < 32, (7#32).getLsbD k = true ∧ ¬((i.thread k).blocked = .waitm 3 ∨ k ∈ i.active) :=
  ⟨at_issue (by decide) ⟨by decide, by decide, by decide, by dsimp only [Issue.writes, Issue.reads, Lane.writable, Lane.readable, Issue.free, Issue.lastWord, Issue.unheld, Thread.hasHandler, Core.clean]; decide, by dsimp only [Issue.writes, Issue.reads, Lane.writable, Lane.readable, Issue.free, Issue.lastWord, Issue.unheld, Thread.hasHandler, Core.clean]; decide, by decide, calm_of (by decide), by dsimp only [Issue.writes, Issue.reads, Lane.writable, Lane.readable, Issue.free, Issue.lastWord, Issue.unheld, Thread.hasHandler, Core.clean]; decide⟩,
    at_issue (by decide) ⟨by decide, by decide, calm_of (by decide), by dsimp only [Issue.writes, Issue.reads, Lane.writable, Lane.readable, Issue.free, Issue.lastWord, Issue.unheld, Thread.hasHandler, Core.clean]; decide⟩⟩

/-- Lane 2 waits on mask 3, whose members are lanes 0 to 2, or it alone. -/
theorem test_meets_MaskReleases :
    (∃ i, (joining true).issue = some i ∧ i.replays = false ∧ (joining true).calm i.cursor.team ∧ i.gang.masks.length = 12
      ∧ 2 ∉ lanesOf i.path.lanes ∧ (i.thread 2).blocked = .waitm 3 ∧ i.reads [2#7, 3#7] ∧ i.active.getLast? = some 1
      ∧ let old := i.gang.masks.getD 3 0#32
        (old &&& maskOf i.active ≠ 0#32 ∧ (old &&& ~~~maskOf i.active).getLsbD 2 = true)
        ∧ (∀ j < 32, (old &&& ~~~maskOf i.active).getLsbD j = true → (i.thread j).blocked = .waitm 3)
        ∧ ((i.val 1 2#7).setWidth 32).getLsbD 2 = false ∧ ((7#32).getLsbD 0 = true ∧ (i.thread 0).blocked ≠ .waitm 3))
    ∧ ∃ i, (onGang (joining true) fun g => { g with masks := g.masks.set 3 4#32 }).issue = some i
      ∧ i.gang.masks.getD 3 0#32 &&& maskOf i.active = 0#32 ∧ (i.thread 2).blocked = .waitm 3 :=
  ⟨at_issue (by decide) ⟨by decide, calm_of (by decide), by dsimp only [Issue.writes, Issue.reads, Lane.writable, Lane.readable, Issue.free, Issue.lastWord, Issue.unheld, Thread.hasHandler, Core.clean]; decide⟩, at_issue (by decide) (by decide)⟩

theorem test_meets_Votes : ∃ i, words.issue = some i ∧ (7#7).toNat < 8 ∧ i.reads [2#7] ∧ i.writes 4#7 := at_issue (by decide) (by dsimp only [Issue.writes, Issue.reads, Lane.writable, Lane.readable, Issue.free, Issue.lastWord, Issue.unheld, Thread.hasHandler, Core.clean]; decide)

/-! ### System words -/

/-- The same in a trap handler. -/
def handling : State := onThreads words fun th => { th with trapDepth := true, trapPc := 0x10008#64, trapCause := 0x117#64 }

theorem test_meets_TrapWords :
    (∃ i, words.issue = some i ∧ i.replays = false ∧ (∀ l ∈ i.active, (i.thread l).hasHandler) ∧ i.reads [2#7])
    ∧ ∃ i, handling.issue = some i ∧ i.replays = false ∧ (∀ l ∈ i.active, (i.thread l).trapDepth = true ∧ (i.thread l).mayConverge = false) ∧ i.lastWord :=
  ⟨at_issue (by decide) (by dsimp only [Issue.writes, Issue.reads, Lane.writable, Lane.readable, Issue.free, Issue.lastWord, Issue.unheld, Thread.hasHandler, Core.clean]; decide), at_issue (by decide) (by dsimp only [Issue.writes, Issue.reads, Lane.writable, Lane.readable, Issue.free, Issue.lastWord, Issue.unheld, Thread.hasHandler, Core.clean]; decide)⟩

theorem test_meets_RegroupAndHints : ∃ i, (longer words).issue = some i ∧ i.active ≠ [] ∧ i.launch.det = false ∧ i.replays = false ∧ i.reads [2#7]
    ∧ (∀ l ∈ i.active, (i.thread l).trapDepth = false ∧ (i.thread l).winBase + (32#7).toNat ≤ (i.thread l).x.length)
    ∧ i.path.pos + 1 < i.path.words.length ∧ i.path.rep = none ∧ i.free := at_issue (by decide) (by dsimp only [Issue.writes, Issue.reads, Lane.writable, Lane.readable, Issue.free, Issue.lastWord, Issue.unheld, Thread.hasHandler, Core.clean]; decide)

theorem test_meets_StatusRegisters :
    (∃ i, handling.issue = some i ∧ i.replays = false ∧ i.path.rep = none ∧ i.writes 4#7 ∧ i.reads [2#7] ∧ (∀ l ∈ i.active, (i.thread l).trapDepth = true)
      ∧ (∀ l ∈ i.active, (i.thread l).mayConverge = false) ∧ ∀ l ∈ i.active, statusLegal 0 (i.val l 4#7) = true ∧ statusLegal 4 (i.val l 112#7) = true)
    ∧ (∃ i, words.issue = some i ∧ i.reads [112#7] ∧ ∀ l ∈ i.active, statusLegal 16 (i.val l 112#7) = true ∧ statusLegal 7 (i.val l 2#7) = true)
    ∧ ∃ i, words.issue = some i ∧ 0 ∈ i.active ∧ i.replays = false ∧ (i.thread 0).hasHandler ∧ (i.lane 0).writable 4#7 1 ∧ (i.lane 0).readable 4#7 1 :=
  ⟨at_issue (by decide) (by dsimp only [Issue.writes, Issue.reads, Lane.writable, Lane.readable, Issue.free, Issue.lastWord, Issue.unheld, Thread.hasHandler, Core.clean]; decide), at_issue (by decide) (by dsimp only [Issue.writes, Issue.reads, Lane.writable, Lane.readable, Issue.free, Issue.lastWord, Issue.unheld, Thread.hasHandler, Core.clean]; decide), at_issue (by decide) (by dsimp only [Issue.writes, Issue.reads, Lane.writable, Lane.readable, Issue.free, Issue.lastWord, Issue.unheld, Thread.hasHandler, Core.clean]; decide)⟩

theorem test_meets_Counters :
    (∃ i, (longer words).issue = some i ∧ (longer words).calm i.cursor.team ∧ i.free ∧ i.replays = false ∧ i.writes 4#7 ∧ i.reads [2#7]
      ∧ i.path.start = 0 ∧ i.path.rep = none ∧ i.path.pos + 1 < i.path.words.length ∧ i.launch.det = false)
    ∧ ∃ i, (deterministic words).issue = some i ∧ i.writes 4#7 ∧ i.path.start = 0 ∧ i.launch.det = true :=
  ⟨at_issue (by decide) ⟨calm_of (by decide), by dsimp only [Issue.writes, Issue.reads, Lane.writable, Lane.readable, Issue.free, Issue.lastWord, Issue.unheld, Thread.hasHandler, Core.clean]; decide⟩, at_issue (by decide) (by dsimp only [Issue.writes, Issue.reads, Lane.writable, Lane.readable, Issue.free, Issue.lastWord, Issue.unheld, Thread.hasHandler, Core.clean]; decide)⟩

/-! ### Memory words -/

/-- Register 2 of lane l holds 0x1000 + 16 l. -/
def accessing : State := issuing (.ldd 4#7 2#7 8#11) fun l => [BitVec.ofNat 64 (0x1000 + 16 * l), 0x1122#64, 7#64]

/-- A change of core 0. -/
def onCore (s : State) (f : Core → Core) : State := s.modCore 0 f

/-- An entry of lane 0 in a store path. -/
def pushed (pa : Nat) (data : List Byte) (kind : StoreKind) : StoreOp :=
  { uid := 50, team := 2, gang := 0, lane := 0, command := none, va := BitVec.ofNat 64 pa, pa, data, kind, seq := 0, digest := false
    sent := false, countGang := 0, after := 0, deferred := false, pc := 0x10004#64 }

/-- The TLB of core 0 holds one leaf for context 0, of 64 GiB. -/
def mapping (leaf : W64) : State := onCore words fun c => { c with tlb := [{ ctx := 0, base := 0, size := 2 ^ 36, leaf }] }

theorem test_meets_Translation :
    canonical 0x0080000000000000#64 = false ∧ canonical 0xFF80000000000000#64 = true
    ∧ (∀ e ∈ (words.core 0).tlb, e.ctx = 0 → e.base ≤ (0x1000000000#64).toNat → (0x1000000000#64).toNat < e.base + e.size → False)
    ∧ (∃ e rest, (words.core 0).tlb = e :: rest ∧ e.ctx = 0 ∧ e.base ≤ 0xFFFFFFFFF ∧ 0xFFFFFFFFF < e.base + e.size
      ∧ pteAddr e.leaf + 0xFFFFFFFFF % leafBytes (pteSize e.leaf) < 2 ^ 39 ∧ pteCtx e.leaf = 0 ∧ e.leaf.getLsbD 3 = true)
    ∧ (∃ e rest, ((mapping 0x000800000000103F#64).core 0).tlb = e :: rest ∧ 2 ^ 39 ≤ pteAddr e.leaf
      ∧ (pteAddr e.leaf + 5).testBit 51 = true ∧ pteCtx e.leaf = 0)
    ∧ (∃ e rest, ((mapping 0x000000800000103F#64).core 0).tlb = e :: rest ∧ 2 ^ 39 ≤ pteAddr e.leaf + 5 ∧ (pteAddr e.leaf + 5).testBit 51 = false)
    ∧ ∃ e rest, ((mapping 0x010000000000102F#64).core 0).tlb = e :: rest ∧ pteAddr e.leaf + 5 < 2 ^ 39 ∧ pteCtx e.leaf ≠ 0
      ∧ pteCtx e.leaf ≠ 16 ∧ e.leaf.getLsbD 4 = false :=
  ⟨by decide, by decide, by decide, ⟨_, _, rfl, by decide⟩, ⟨_, _, rfl, by decide⟩, ⟨_, _, rfl, by decide⟩, ⟨_, _, rfl, by decide⟩⟩

/-- The sector of lane 0's access stands in the L1, or its own store of these bytes in the store path. -/
def caching : State := onCore accessing fun c => { c with l1 := [{ sector := 64, data := List.replicate 64 7#8, poisoned := false }] }
def forwarding : State :=
  onCore (onThreads accessing fun th => { th with memSeq := 1 }) fun c => { c with stores := [pushed 0x1008 (List.replicate 8 9#8) .plain] }

theorem test_meets_Loads :
    (∃ i, accessing.issue = some i ∧ i.unheld ∧ (accessing.core i.team.core).clean ∧ i.writes 4#7 ∧ i.reads [2#7, 112#7]
      ∧ (accessing.storing i.team.core i.cursor.team i.cursor.gang 0 = false ∧ (accessing.core i.team.core).l1Find 64 = none)
      ∧ accessing.calm i.cursor.team
      ∧ accessing.reaches i .load 8 (fun l => i.val l 2#7 + (8#11).signExtend 64) (fun l => 0x1008 + 16 * l)
      ∧ accessing.reaches i .load 1 (fun l => i.val l 2#7 + i.val l 112#7) (fun l => 0x1000 + 16 * l))
    ∧ (∃ i, caching.issue = some i ∧ (caching.core i.team.core).clean ∧ caching.storing i.team.core i.cursor.team i.cursor.gang 0 = false
      ∧ ((caching.core i.team.core).l1Find (0x1008 / 64)).isSome)
    ∧ ∃ i, forwarding.issue = some i ∧ (forwarding.core i.team.core).clean
      ∧ forwarding.ownStores i.team.core i.cursor.team i.cursor.gang 0 (i.thread 0).memSeq = [] ++ [pushed 0x1008 (List.replicate 8 9#8) .plain]
      ∧ forwarding.pendsBefore i.team.core i.cursor.team i.cursor.gang 0 (i.thread 0).memSeq 0x1008 8 false = false
      ∧ forwarding.laneBefore i.cursor.team i.cursor.gang forwarding.tick 0 i.path.prefixAddr 0x1008 8 = false
      ∧ forwarding.behind i [0] = false :=
  ⟨at_issue (by decide) ⟨by dsimp only [Issue.writes, Issue.reads, Lane.writable, Lane.readable, Issue.free, Issue.lastWord, Issue.unheld, Thread.hasHandler, Core.clean]; decide, by dsimp only [Issue.writes, Issue.reads, Lane.writable, Lane.readable, Issue.free, Issue.lastWord, Issue.unheld, Thread.hasHandler, Core.clean]; decide, by dsimp only [Issue.writes, Issue.reads, Lane.writable, Lane.readable, Issue.free, Issue.lastWord, Issue.unheld, Thread.hasHandler, Core.clean]; decide, by dsimp only [Issue.writes, Issue.reads, Lane.writable, Lane.readable, Issue.free, Issue.lastWord, Issue.unheld, Thread.hasHandler, Core.clean]; decide, by decide, calm_of (by decide), reaches_of probeLeaf (by decide) (by decide),
      reaches_of probeLeaf (by decide) (by decide)⟩,
    at_issue (by decide) (by dsimp only [Issue.writes, Issue.reads, Lane.writable, Lane.readable, Issue.free, Issue.lastWord, Issue.unheld, Thread.hasHandler, Core.clean]; decide), at_issue (by decide) (by dsimp only [Issue.writes, Issue.reads, Lane.writable, Lane.readable, Issue.free, Issue.lastWord, Issue.unheld, Thread.hasHandler, Core.clean]; decide)⟩

theorem test_meets_Stores : ∃ i, accessing.issue = some i ∧ i.unheld ∧ i.reads [4#7, 2#7, 112#7]
    ∧ accessing.reaches i .store 8 (fun l => i.val l 2#7 + (8#11).signExtend 64) (fun l => 0x1008 + 16 * l)
    ∧ accessing.reaches i .store 4 (fun l => i.val l 2#7 + i.val l 112#7) (fun l => 0x1000 + 16 * l) :=
  at_issue (by decide) ⟨by dsimp only [Issue.writes, Issue.reads, Lane.writable, Lane.readable, Issue.free, Issue.lastWord, Issue.unheld, Thread.hasHandler, Core.clean]; decide, by dsimp only [Issue.writes, Issue.reads, Lane.writable, Lane.readable, Issue.free, Issue.lastWord, Issue.unheld, Thread.hasHandler, Core.clean]; decide, reaches_of probeLeaf (by decide) (by decide), reaches_of probeLeaf (by decide) (by decide)⟩

theorem test_meets_Alignment : ∃ i, (alone accessing).issue = some i ∧ i.unheld ∧ i.path.lanes = 1#32 ∧ i.active = [0]
    ∧ (i.thread 0).hasHandler ∧ i.writes 4#7 ∧ i.reads [4#7, 2#7] ∧ (i.val 0 2#7 + (0x7FF#11).signExtend 64).toNat % 8 ≠ 0 :=
  at_issue (by decide) (by dsimp only [Issue.writes, Issue.reads, Lane.writable, Lane.readable, Issue.free, Issue.lastWord, Issue.unheld, Thread.hasHandler, Core.clean]; decide)

theorem test_meets_Calls :
    (∃ i, jumping.issue = some i ∧ i.unheld ∧ i.lastWord ∧ i.reads [2#7]
      ∧ jumping.finds i .store 8 (fun l => (i.thread l).privBase + BitVec.ofNat 64 (8 * (i.thread l).retDepth)) (fun l => 0x20000 + 256 * l)
      ∧ ∀ l ∈ i.active, (i.thread l).retDepth < 32 ∧ canonical (i.val l 2#7) = true ∧ i.val l 2#7 &&& 3#64 = 0#64)
    ∧ ∃ i, (onThreads (alone jumping) fun th => { th with retDepth := 32 }).issue = some i ∧ i.unheld ∧ i.path.lanes = 1#32
      ∧ i.active = [0] ∧ (i.thread 0).hasHandler ∧ (i.thread 0).retDepth = 32 :=
  ⟨at_issue (by decide) ⟨by dsimp only [Issue.writes, Issue.reads, Lane.writable, Lane.readable, Issue.free, Issue.lastWord, Issue.unheld, Thread.hasHandler, Core.clean]; decide, by dsimp only [Issue.writes, Issue.reads, Lane.writable, Lane.readable, Issue.free, Issue.lastWord, Issue.unheld, Thread.hasHandler, Core.clean]; decide, by dsimp only [Issue.writes, Issue.reads, Lane.writable, Lane.readable, Issue.free, Issue.lastWord, Issue.unheld, Thread.hasHandler, Core.clean]; decide, finds_of probeLeaf (by decide), by decide⟩, at_issue (by decide) (by dsimp only [Issue.writes, Issue.reads, Lane.writable, Lane.readable, Issue.free, Issue.lastWord, Issue.unheld, Thread.hasHandler, Core.clean]; decide)⟩

/-- One return address on the stack, in memory or still in the store path. -/
def returning : State :=
  let s := onThreads (alone words) fun th => { th with retDepth := 1 }
  { s with mem := s.mem.writeNat 0x20000 8 0x2000 }
def returningOwn : State :=
  onCore (onThreads (alone words) fun th => { th with retDepth := 1, memSeq := 1 }) fun c =>
    { c with stores := [pushed 0x20000 (bytesOfNat 8 0x2000) .plain] }

theorem test_meets_Returns :
    (∃ i, returning.issue = some i ∧ i.unheld ∧ i.lastWord
      ∧ returning.finds i .load 8 (fun l => (i.thread l).privBase + BitVec.ofNat 64 (8 * ((i.thread l).retDepth - 1))) (fun _ => 0x20000)
      ∧ ∀ l ∈ i.active, (i.thread l).retDepth ≠ 0 ∧ returning.behind i [l] = false ∧ isRemote 0x20000 = false ∧ canonical 0x2000#64 = true ∧ 0x2000#64 &&& 3#64 = 0#64
        ∧ returning.pendsBefore i.team.core i.cursor.team i.cursor.gang l (i.thread l).memSeq 0x20000 8 false = false
        ∧ returning.storing i.team.core i.cursor.team i.cursor.gang l = false ∧ (returning.core i.team.core).l1Find (0x20000 / 64) = none
        ∧ returning.poisonedAt 0x20000 8 = false ∧ (0x2000#64).toNat = returning.mem.readNat 0x20000 8)
    ∧ (∃ i, returningOwn.issue = some i ∧ returningOwn.behind i [0] = false
      ∧ returningOwn.ownStores i.team.core i.cursor.team i.cursor.gang 0 (i.thread 0).memSeq = [] ++ [pushed 0x20000 (bytesOfNat 8 0x2000) .plain]
      ∧ returningOwn.pendsBefore i.team.core i.cursor.team i.cursor.gang 0 (i.thread 0).memSeq 0x20000 8 false = false)
    ∧ ∃ i, (alone words).issue = some i ∧ i.unheld ∧ i.path.lanes = 1#32 ∧ i.active = [0] ∧ (i.thread 0).hasHandler ∧ (i.thread 0).retDepth = 0 :=
  ⟨at_issue (by decide) ⟨by dsimp only [Issue.writes, Issue.reads, Lane.writable, Lane.readable, Issue.free, Issue.lastWord, Issue.unheld, Thread.hasHandler, Core.clean]; decide, by dsimp only [Issue.writes, Issue.reads, Lane.writable, Lane.readable, Issue.free, Issue.lastWord, Issue.unheld, Thread.hasHandler, Core.clean]; decide, finds_of probeLeaf (by decide), by decide⟩, at_issue (by decide) (by decide), at_issue (by decide) (by dsimp only [Issue.writes, Issue.reads, Lane.writable, Lane.readable, Issue.free, Issue.lastWord, Issue.unheld, Thread.hasHandler, Core.clean]; decide)⟩

theorem test_meets_Scratch :
    (∃ i, accessing.issue = some i ∧ i.gang.tx = none ∧ i.writes 4#7 ∧ i.reads [4#7, 2#7, 112#7] ∧ i.team.scratch.wf = true
      ∧ (∀ l ∈ i.active, (i.val l 2#7 + i.val l 112#7).toNat % 8 = 0 ∧ (i.val l 2#7 + i.val l 112#7).toNat + 8 ≤ 16384 * i.team.scratchUnits)
      ∧ i.team.logs = [] ∧ ∀ l ∈ i.active, accessing.applied i.team.core (i.thread l).relStore = true
        ∧ accessing.readsBoundBefore i.cursor.team i.cursor.gang l (i.thread l).relRead = true
        ∧ accessing.deferredBefore i.team.core i.cursor.team i.cursor.gang l (i.thread l).relRead = false)
    ∧ (∃ i, (onThreads forwarding fun th => { th with relStore := 51 }).issue = some i ∧ i.gang.tx = none
      ∧ 0 ∈ i.active ∧ (onThreads forwarding fun th => { th with relStore := 51 }).applied i.team.core (i.thread 0).relStore = false)
    ∧ ∃ i, (alone (issuing (.mov 4#7 2#7) fun _ => [16384#64])).issue = some i ∧ i.replays = false ∧ i.gang.tx = none ∧ i.path.lanes = 1#32
      ∧ i.active = [0] ∧ (i.thread 0).hasHandler ∧ i.writes 4#7 ∧ i.reads [4#7, 2#7, 112#7]
      ∧ (i.val 0 2#7 + i.val 0 112#7).toNat % 1 = 0 ∧ 16384 * i.team.scratchUnits < (i.val 0 2#7 + i.val 0 112#7).toNat + 1 :=
  ⟨at_issue (by decide) (by dsimp only [Issue.writes, Issue.reads, Lane.writable, Lane.readable, Issue.free, Issue.lastWord, Issue.unheld, Thread.hasHandler, Core.clean]; decide), at_issue (by decide) (by decide), at_issue (by decide) (by dsimp only [Issue.writes, Issue.reads, Lane.writable, Lane.readable, Issue.free, Issue.lastWord, Issue.unheld, Thread.hasHandler, Core.clean]; decide)⟩

theorem test_meets_PrefetchAndDiscard : ∃ i, accessing.issue = some i ∧ i.replays = false ∧ i.reads [2#7, 112#7]
    ∧ ∀ l ∈ i.active, accessing.translate i.team.core i.team.ctx (i.val l 2#7 + i.val l 112#7) .load = .ok (0x1000 + 16 * l) probeLeaf
      ∧ accessing.translate i.team.core i.team.ctx (i.val l 2#7 + i.val l 112#7) .nothing = .ok (0x1000 + 16 * l) probeLeaf
      ∧ isRemote (0x1000 + 16 * l) = false ∧ pteCache probeLeaf = 0 := at_issue (by decide) ⟨by decide, by dsimp only [Issue.writes, Issue.reads, Lane.writable, Lane.readable, Issue.free, Issue.lastWord, Issue.unheld, Thread.hasHandler, Core.clean]; decide, by decide⟩

/-! ### Atomics and waits -/

theorem test_meets_AtomicWords : ∃ i, accessing.issue = some i ∧ i.unheld ∧ i.launch.det = false ∧ i.reads [2#7, 3#7] ∧ i.writes 4#7
    ∧ (∀ l ∈ i.active, (i.lane l).readable 3#7 2) ∧ accessing.calm i.cursor.team
    ∧ accessing.reaches i .atomic 8 (fun l => i.val l 2#7) (fun l => 0x1000 + 16 * l)
    ∧ accessing.reaches i .store 4 (fun l => i.val l 2#7) (fun l => 0x1000 + 16 * l) :=
  at_issue (by decide) ⟨by dsimp only [Issue.writes, Issue.reads, Lane.writable, Lane.readable, Issue.free, Issue.lastWord, Issue.unheld, Thread.hasHandler, Core.clean]; decide, by decide, by dsimp only [Issue.writes, Issue.reads, Lane.writable, Lane.readable, Issue.free, Issue.lastWord, Issue.unheld, Thread.hasHandler, Core.clean]; decide, by dsimp only [Issue.writes, Issue.reads, Lane.writable, Lane.readable, Issue.free, Issue.lastWord, Issue.unheld, Thread.hasHandler, Core.clean]; decide, by dsimp only [Issue.writes, Issue.reads, Lane.writable, Lane.readable, Issue.free, Issue.lastWord, Issue.unheld, Thread.hasHandler, Core.clean]; decide, calm_of (by decide), reaches_of probeLeaf (by decide) (by decide),
    reaches_of probeLeaf (by decide) (by decide)⟩
theorem test_meets_AtomicValues : ∀ n, n = 4 → n = 4 ∨ n = 8 := fun _ h => .inl h

/-- One pending operation, of lane 0. -/
def pendingOp (k : OpKind) : Op :=
  { uid := 60, team := 2, gang := 0, lane := 0, core := 0, pc := 0x10004#64, flag := some 0, live := true, seq := 0, batch := 0, after := 0, queued := false
    kind := k }
def pending (k : OpKind) : State := { words with ops := [pendingOp k] }

theorem test_meets_AtomicCompletion :
    (∃ o, (pending (.returned (.x 4) 7 false 0#5)).op? o.uid = some o ∧ o.kind = .returned (.x 4) 7 false 0#5)
    ∧ (∃ o, (pending (.atomic (.atomic 0 8 0x1000#64 0x1000 1#64 (.x 4)))).op? o.uid = some o
      ∧ o.kind = .atomic (.atomic 0 8 0x1000#64 0x1000 1#64 (.x 4)) ∧ isRemote 0x1000 = false
      ∧ let s := pending (.atomic (.atomic 0 8 0x1000#64 0x1000 1#64 (.x 4)))
        s.poisonedAt 0x1000 8 = false ∧ s.Canonical ∧ s.atomicWaits o (.atomic 0 8 0x1000#64 0x1000 1#64 (.x 4)) = false)
    ∧ ∃ o, (pending (.atomic (.cas 4 0x1000#64 0x1000 0#64 5#64 (.x 4)))).op? o.uid = some o
      ∧ o.kind = .atomic (.cas 4 0x1000#64 0x1000 0#64 5#64 (.x 4))
      ∧ let s := pending (.atomic (.cas 4 0x1000#64 0x1000 0#64 5#64 (.x 4)))
        s.atomicWaits o (.cas 4 0x1000#64 0x1000 0#64 5#64 (.x 4)) = false ∧ s.mem.readNat 0x1000 4 = (0#64).toNat % 2 ^ 32 :=
  ⟨⟨pendingOp _, rfl, rfl⟩, ⟨pendingOp _, rfl, rfl, by decide, by unfold State.Canonical; decide⟩, ⟨pendingOp _, rfl, rfl, by decide⟩⟩

/-- A load of 8 bytes at 0x1000 that has bound or has not. -/
def loadReq (bound : Option W64) : LoadReq :=
  { dest := .x 4, va := 0x1000#64, pa := 0x1000, size := 8, signExtend := false, allocate := true, bypass := false, bound }
def loading (bound : Option W64) : OpKind := .load (loadReq bound)

theorem test_meets_LoadCompletion :
    (∃ o r v, (pending (loading (some 7#64))).op? o.uid = some o ∧ o.kind = .load r ∧ r.bound = some v)
    ∧ ∃ o r, (pending (loading none)).op? o.uid = some o ∧ o.kind = .load r ∧ r.bound = none ∧ isRemote r.pa = false ∧ 0 < r.size
      ∧ (pending (loading none)).loadWaits o r = false ∧ r.allocate = true
      ∧ (pending (loading none)).storing o.core o.team o.gang o.lane = false ∧ (pending (loading none)).poisonedAt r.pa r.size = false :=
  ⟨⟨pendingOp _, loadReq _, _, rfl, rfl, rfl⟩, ⟨pendingOp _, loadReq _, rfl, rfl, by decide⟩⟩

/-- The same with another name. -/
def pushedAs (uid pa : Nat) (k : StoreKind) : StoreOp := { pushed pa (List.replicate 8 9#8) k with uid }

/-- At the head of the path, and behind an entry for another line; and an entry for the system window. -/
theorem test_meets_StoreCompletion :
    (∀ k, (k = .plain ∨ k = .edit 0 ∨ k = .reduce 0) → ∀ pre, (pre = [] ∨ pre = [pushedAs 49 0x3000 .plain]) →
      let x := pushedAs 50 0x1000 k
      let s := onCore words fun c => { c with stores := pre ++ x :: [pushedAs 51 0x2000 .plain] }
      (s.core 0).stores = pre ++ x :: [pushedAs 51 0x2000 .plain] ∧ ((s.core 0).stores.map StoreOp.uid).Nodup ∧ x.command = none
        ∧ x.deferred = false ∧ x.sent = false ∧ s.storeWaits 0 x = false ∧ isRemote x.pa = false ∧ s.Canonical
        ∧ s.poisonedAt x.pa x.data.length = false)
    ∧ let x := pushedAs 50 (2 ^ 51) .plain
      let s := onCore words fun c => { c with stores := [x] }
      (s.core 0).stores = [] ++ x :: [] ∧ s.storeWaits 0 x = false ∧ isRemote x.pa = true := by
  refine ⟨?_, by decide⟩
  rintro k (rfl | rfl | rfl) pre (rfl | rfl) <;> unfold State.Canonical <;> decide

/-- Lane 0 waits for the doubleword at 0x1000 to become b. -/
def waiting (b : W64) : State :=
  onGang words fun g => { g with threads := g.threads.mapIdx fun l th =>
    if l = 0 then { th with blocked := .waitf 0#2 0x1000#64 0x1000 b (.x 4) true 0x10008#64 } else th }

theorem test_meets_WaitOnMemory :
    (∃ i, accessing.issue = some i ∧ i.unheld ∧ i.launch.det = false ∧ i.writes 4#7 ∧ i.reads [2#7, 3#7] ∧ accessing.calm i.cursor.team
      ∧ accessing.reaches i .load 8 (fun l => i.val l 2#7) (fun l => 0x1000 + 16 * l))
    ∧ ∀ b, (b = 0#64 ∨ b = 1#64) → ∃ tm th, (waiting b).team? 2 = some tm ∧ (waiting b).thread? 2 0 0 = some th
      ∧ th.blocked = .waitf 0#2 0x1000#64 0x1000 b (.x 4) true 0x10008#64 ∧ tm.state = .running ∧ (waiting b).detLaunch tm.launch = false
      ∧ (waiting b).watching 2 0 0 = false ∧ (waiting b).observes tm.core 2 0 0 0x1000 = true ∧ isRemote 0x1000 = false
      ∧ (waiting b).poisonedAt 0x1000 8 = false := by
  refine ⟨at_issue (by decide) ⟨by dsimp only [Issue.writes, Issue.reads, Lane.writable, Lane.readable, Issue.free, Issue.lastWord, Issue.unheld, Thread.hasHandler, Core.clean]; decide, by decide, by dsimp only [Issue.writes, Issue.reads, Lane.writable, Lane.readable, Issue.free, Issue.lastWord, Issue.unheld, Thread.hasHandler, Core.clean]; decide, by dsimp only [Issue.writes, Issue.reads, Lane.writable, Lane.readable, Issue.free, Issue.lastWord, Issue.unheld, Thread.hasHandler, Core.clean]; decide, calm_of (by decide), reaches_of probeLeaf (by decide) (by decide)⟩, ?_⟩
  rintro b (rfl | rfl)
  · exact ⟨_, _, rfl, rfl, by decide⟩
  · exact ⟨_, _, rfl, rfl, by decide⟩

theorem test_meets_Fences :
    (∃ i, words.issue = some i ∧ i.replays = false ∧ i.gang.tx = none ∧ i.active ≠ [] ∧ words.calm i.cursor.team
      ∧ ∀ l ∈ i.active, words.readsBound i.cursor.team i.cursor.gang l = true ∧ (i.thread l).hasHandler)
    ∧ ∃ i, let s := onThreads (onGang accessing fun g => { g with unacked := 3 }) fun th => { th with relHold := true }
      s.issue = some i ∧ i.replays = false ∧ i.gang.tx = none ∧ i.team.kill = none ∧ i.gang.unacked ≠ 0
      ∧ (∃ l ∈ i.active, (i.thread l).relHold = true) ∧ i.reads [4#7, 2#7, 112#7] ∧ i.writes 4#7
      ∧ s.reaches i .store 8 (fun l => i.val l 2#7 + (8#11).signExtend 64) (fun l => 0x1008 + 16 * l)
      ∧ s.reaches i .atomic 8 (fun l => i.val l 2#7) (fun l => 0x1000 + 16 * l) :=
  ⟨at_issue (by decide) ⟨by decide, by decide, by decide, calm_of (by decide), by dsimp only [Issue.writes, Issue.reads, Lane.writable, Lane.readable, Issue.free, Issue.lastWord, Issue.unheld, Thread.hasHandler, Core.clean]; decide⟩,
    at_issue (by decide) ⟨by decide, by decide, by decide, by decide, by decide, by dsimp only [Issue.writes, Issue.reads, Lane.writable, Lane.readable, Issue.free, Issue.lastWord, Issue.unheld, Thread.hasHandler, Core.clean]; decide, by dsimp only [Issue.writes, Issue.reads, Lane.writable, Lane.readable, Issue.free, Issue.lastWord, Issue.unheld, Thread.hasHandler, Core.clean]; decide, reaches_of probeLeaf (by decide) (by decide),
      reaches_of probeLeaf (by decide) (by decide)⟩⟩

/-- Barrier 3 as given. -/
def barring (b : Barrier) : State := onTeam words fun t => { t with barriers := t.barriers.set 3 b }

theorem test_meets_Barriers :
    (∃ i, (barring { expected := 33, arrivals := 1, episode := 0, mark := 0 }).issue = some i ∧ i.free ∧ i.gang.tx = none ∧ i.launch.det = false
      ∧ i.team.barriers[(3#10).toNat]? = some { expected := 33, arrivals := 1, episode := 0, mark := 0 }
      ∧ i.replays = false ∧ (barring { expected := 33, arrivals := 1, episode := 0, mark := 0 }).behindReads i i.active = false
      ∧ (barring { expected := 33, arrivals := 1, episode := 0, mark := 0 }).calm i.cursor.team)
    ∧ (∃ i, (barring { expected := 0, arrivals := 0, episode := 0, mark := 0 }).issue = some i ∧ i.free ∧ i.replays = false
      ∧ (barring { expected := 0, arrivals := 0, episode := 0, mark := 0 }).behindReads i i.active = false
      ∧ i.team.barriers[(3#10).toNat]? = some { expected := 0, arrivals := 0, episode := 0, mark := 0 } ∧ 31 ∈ i.active ∧ (i.thread 31).hasHandler)
    ∧ ∃ i, words.issue = some i ∧ i.replays = false ∧ i.free ∧ (i.team.barriers[(3#10).toNat]?.map Barrier.arrivals) = some 0 ∧ i.reads [3#7]
      ∧ i.active.getLast? = some 31 ∧ 1 ≤ (i.val 31 3#7).toNat ∧ (i.val 31 3#7).toNat ≤ 512
      ∧ ∀ l ∈ i.active, words.readsBound i.cursor.team i.cursor.gang l = true :=
  ⟨at_issue (by decide) ⟨by dsimp only [Issue.writes, Issue.reads, Lane.writable, Lane.readable, Issue.free, Issue.lastWord, Issue.unheld, Thread.hasHandler, Core.clean]; decide, by decide, by decide, by decide, by decide, by decide, calm_of (by decide)⟩, at_issue (by decide) (by dsimp only [Issue.writes, Issue.reads, Lane.writable, Lane.readable, Issue.free, Issue.lastWord, Issue.unheld, Thread.hasHandler, Core.clean]; decide),
    at_issue (by decide) (by dsimp only [Issue.writes, Issue.reads, Lane.writable, Lane.readable, Issue.free, Issue.lastWord, Issue.unheld, Thread.hasHandler, Core.clean]; decide)⟩

/-- A COOP launch, of whose one root team all threads are on the path, or not. -/
def gridding (lanes : W32) : State := onPath (onLaunch words fun la => { la with control := 4#64 }) fun p => { p with lanes }

theorem test_meets_GridBarrier :
    (∃ i, (gridding 0xFFFFFFFF#32).issue = some i ∧ i.replays = false ∧ i.gang.tx = none ∧ i.launch.coop = true ∧ i.task.parent = none ∧ i.launch.det = false
      ∧ i.gang.unacked = 0 ∧ i.free ∧ i.active ≠ [] ∧ i.team.kill = none
      ∧ (gridding 0xFFFFFFFF#32).behind i i.active = false
      ∧ (∀ l ∈ i.active, (gridding 0xFFFFFFFF#32).readsBound i.cursor.team i.cursor.gang l = true ∧ l < i.gang.threads.length
        ∧ (i.thread l).gbarArrival ≠ some i.launch.gbarEpisode)
      ∧ (∀ l < 32, l ∈ i.active) ∧ (gridding 0xFFFFFFFF#32).calm i.cursor.team)
    ∧ (∃ i, (gridding 1#32).issue = some i ∧ i.launch.coop = true ∧ i.free ∧ 1 ∉ i.active ∧ (i.thread 1).exited = false)
    ∧ ∃ i, words.issue = some i ∧ i.replays = false ∧ i.launch.coop = false ∧ 0 ∈ i.active ∧ (i.thread 0).hasHandler :=
  ⟨at_issue (by decide) ⟨by decide, by decide, by decide, by decide, by decide, by decide, by dsimp only [Issue.writes, Issue.reads, Lane.writable, Lane.readable, Issue.free, Issue.lastWord, Issue.unheld, Thread.hasHandler, Core.clean]; decide, by decide, by decide, by decide, by decide, by decide,
      calm_of (by decide)⟩, at_issue (by decide) (by dsimp only [Issue.writes, Issue.reads, Lane.writable, Lane.readable, Issue.free, Issue.lastWord, Issue.unheld, Thread.hasHandler, Core.clean]; decide), at_issue (by decide) (by dsimp only [Issue.writes, Issue.reads, Lane.writable, Lane.readable, Issue.free, Issue.lastWord, Issue.unheld, Thread.hasHandler, Core.clean]; decide)⟩

/-! ### Engine commands -/

/-- The queue registers hold a fill of four bytes of scratch, or a gather of one word from 0x1000. -/
def queueing (gather : Bool) : State :=
  onTeam words fun t => { t with queueRegs := if gather then [0x100000#64, 0x1000#64, 64#64, 2#64] else [0x21000004#64, 0#64, 64#64, 0#64] }

theorem test_meets_EngineWords : ∀ gather, ∃ i x, (queueing gather).issue = some i ∧ i.reads [2#7] ∧ i.active.getLast? = some 31
    ∧ (queueing gather).behindReads i i.active = false ∧ i.unheld ∧ i.free ∧ i.active ≠ [] ∧ i.writes 4#7 ∧ i.team.timelines[(0#7).toNat]? = some x ∧ i.team.timelines[(0#4).toNat]? = some x
    ∧ (let q := fun n => i.team.queueRegs.getD n 0#64; validateCommand gather (q 0) (q 1) (q 2) (q 3) = none)
    ∧ (queueing gather).calm i.cursor.team := by
  rintro (_ | _) <;> refine ⟨_, ⟨0, 0⟩, (Option.some_get (show _ = true by decide)).symm, ?_⟩
  · exact ⟨by dsimp only [Issue.writes, Issue.reads, Lane.writable, Lane.readable, Issue.free, Issue.lastWord, Issue.unheld, Thread.hasHandler, Core.clean]; decide, by decide, by decide, by dsimp only [Issue.writes, Issue.reads, Lane.writable, Lane.readable, Issue.free, Issue.lastWord, Issue.unheld, Thread.hasHandler, Core.clean]; decide, by dsimp only [Issue.writes, Issue.reads, Lane.writable, Lane.readable, Issue.free, Issue.lastWord, Issue.unheld, Thread.hasHandler, Core.clean]; decide, by decide, by dsimp only [Issue.writes, Issue.reads, Lane.writable, Lane.readable, Issue.free, Issue.lastWord, Issue.unheld, Thread.hasHandler, Core.clean]; decide, by decide, by decide, by decide, calm_of (by decide)⟩
  · exact ⟨by dsimp only [Issue.writes, Issue.reads, Lane.writable, Lane.readable, Issue.free, Issue.lastWord, Issue.unheld, Thread.hasHandler, Core.clean]; decide, by decide, by decide, by dsimp only [Issue.writes, Issue.reads, Lane.writable, Lane.readable, Issue.free, Issue.lastWord, Issue.unheld, Thread.hasHandler, Core.clean]; decide, by dsimp only [Issue.writes, Issue.reads, Lane.writable, Lane.readable, Issue.free, Issue.lastWord, Issue.unheld, Thread.hasHandler, Core.clean]; decide, by decide, by dsimp only [Issue.writes, Issue.reads, Lane.writable, Lane.readable, Issue.free, Issue.lastWord, Issue.unheld, Thread.hasHandler, Core.clean]; decide, by decide, by decide, by decide, calm_of (by decide)⟩

theorem test_meets_CopyLayout : validateCommand false 0x21000004#64 0#64 64#64 0#64 = none := by decide

/-- One command of context 0, queued or running. -/
def command (gather : Bool) (state : CommandState) : Command :=
  { uid := 70, gang := 0, ctx := 0, ticket := 1, gather, q0 := if gather then 0x100000#64 else 0x21000004#64
    q1 := if gather then 0x1000#64 else 0#64, q2 := 64#64, q3 := if gather then 2#64 else 0#64, state, elements := 0, fetched := [], kept := []
    after := 0 }
def commanding (gather : Bool) (state : CommandState) : State :=
  onTeam words fun t => { t with commands := [command gather state], timelines := [{ issued := 1, counter := 0 }] }

/-- A copy command of four bytes: q0, source and destination. -/
def copying (q0 src dst : W64) : EngineRun :=
  let s := commanding false .running
  { team := { ((s.team? 2).getD (probeTeam 0 0 0 0)) with commands := [{ command false .running with q0, q1 := src, q2 := dst }] }
    cmd := { command false .running with q0, q1 := src, q2 := dst } }
def copyingState (q0 src dst : W64) : State := onTeam (commanding false .running) fun _ => (copying q0 src dst).team

/-- A byte that a decidable test of its left side accepts is a left one that meets the test. -/
theorem left_of {β : Type} {P : W64 → Prop} [DecidablePred P] {b : W64 ⊕ β} (h : b.getLeft?.any (fun a => decide (P a)) = true) :
    ∃ a, b = .inl a ∧ P a := by
  cases b with
  | inl a => exact ⟨a, rfl, by simpa using h⟩
  | inr _ => simp at h

/-- A fill of scratch; a copy from memory to scratch, from scratch to memory, and within scratch. -/
theorem test_meets_CopyTransfers :
    (∃ r g, (commanding false .queued).command? r.cmd.uid = some r ∧ r.cmd.state = .queued ∧ r.team.gangs[r.cmd.gang]? = some g
      ∧ g.unacked = 0 ∧ (commanding false .queued).applied r.team.core r.cmd.after = true
      ∧ (commanding false .queued).team? r.team.uid = some r.team)
    ∧ ∀ x, (x = (0x21000004#64, 0#64, 64#64) ∨ x = (0x01000004#64, 0x1000#64, 64#64) ∨ x = (0x02000004#64, 64#64, 0x2000#64)
        ∨ x = (0x03000004#64, 0#64, 64#64)) →
      let r := copying x.1 x.2.1 x.2.2
      let s := copyingState x.1 x.2.1 x.2.2
      let q0 := r.cmd.q0
      let chunks := copyChunks q0 r.cmd.q1 r.cmd.q2 r.cmd.q3
      s.command? r.cmd.uid = some r ∧ s.team? r.team.uid = some r.team ∧ r.cmd.state = .running ∧ r.cmd.gather = false ∧ r.cmd.kept = []
      ∧ r.team.state ≠ .replay ∧ r.team.scratch.wf = true ∧ s.commandStores r.team.core r.cmd.uid = false ∧ r.cmd.elements < chunks.length
      ∧ r.team.logs = [] ∧ (∀ c ∈ chunks, r.overlapping s c = [])
      ∧ (∀ c ∈ chunks, ∀ b ∈ c.bytes, b.isRight = true
        ∨ (q0.getLsbD 25 = true ∧ ∃ a, b = .inl a ∧ a.toNat < 16384 * r.team.scratchUnits
          ∧ (q0.getLsbD 24 = true → ∀ c' ∈ chunks, a.toNat < c'.dst.toNat ∨ c'.dst.toNat + c'.bytes.length ≤ a.toNat))
        ∨ (q0.getLsbD 25 = false ∧ ∃ a, b = .inl a ∧ s.translate r.team.core r.team.ctx a .load = .ok a.toNat probeLeaf
          ∧ isRemote a.toNat = false ∧ s.poisonedAt a.toNat 1 = false))
      ∧ ∀ c ∈ chunks, (q0.getLsbD 24 = true ∧ c.dst.toNat + c.bytes.length ≤ 16384 * r.team.scratchUnits)
        ∨ (q0.getLsbD 24 = false ∧ ∀ k < c.bytes.length, s.translate r.team.core r.team.ctx (c.dst + BitVec.ofNat 64 k) .store
            = .ok (c.dst + BitVec.ofNat 64 k).toNat probeLeaf ∧ isRemote (c.dst + BitVec.ofNat 64 k).toNat = false) := by
  refine ⟨⟨{ team := ((commanding false .queued).team? 2).getD (probeTeam 0 0 0 0), cmd := command false .queued }, _, rfl, by decide, rfl,
      by decide, by decide⟩, ?_⟩
  rintro x (rfl | rfl | rfl | rfl)
  · refine ⟨by decide, by decide, by decide, by decide, by decide, by decide, by decide, by decide, by decide, by decide, by decide, ?_, ?_⟩
    · exact fun c hc b hb => .inl ((show ∀ c ∈ copyChunks 0x21000004#64 0#64 64#64 0#64, ∀ b ∈ c.bytes, b.isRight = true by decide) c hc b hb)
    · exact fun c hc => .inl ⟨by decide,
        (show ∀ c ∈ copyChunks 0x21000004#64 0#64 64#64 0#64, c.dst.toNat + c.bytes.length ≤ _ by decide) c hc⟩
  · refine ⟨by decide, by decide, by decide, by decide, by decide, by decide, by decide, by decide, by decide, by decide, by decide, ?_, ?_⟩
    · exact fun c hc b hb => .inr (.inr ⟨by decide, left_of
        ((show ∀ c ∈ copyChunks 0x01000004#64 0x1000#64 64#64 0#64, ∀ b ∈ c.bytes, b.getLeft?.any (fun a => decide ((copyingState 0x01000004#64 0x1000#64 64#64).translate
            (copying 0x01000004#64 0x1000#64 64#64).team.core (copying 0x01000004#64 0x1000#64 64#64).team.ctx a .load = .ok a.toNat probeLeaf
          ∧ isRemote a.toNat = false ∧ (copyingState 0x01000004#64 0x1000#64 64#64).poisonedAt a.toNat 1 = false)) = true by decide) c hc b hb)⟩)
    · exact fun c hc => .inl ⟨by decide,
        (show ∀ c ∈ copyChunks 0x01000004#64 0x1000#64 64#64 0#64, c.dst.toNat + c.bytes.length ≤ 16384 * (copying 0x01000004#64 0x1000#64 64#64).team.scratchUnits by decide) c hc⟩
  · refine ⟨by decide, by decide, by decide, by decide, by decide, by decide, by decide, by decide, by decide, by decide, by decide, ?_, ?_⟩
    · exact fun c hc b hb => .inr (.inl ⟨by decide, left_of
        ((show ∀ c ∈ copyChunks 0x02000004#64 64#64 0x2000#64 0#64, ∀ b ∈ c.bytes, b.getLeft?.any (fun a => decide (a.toNat < 16384 * (copying 0x02000004#64 64#64 0x2000#64).team.scratchUnits
          ∧ ((0x02000004#64).getLsbD 24 = true → ∀ c' ∈ copyChunks 0x02000004#64 64#64 0x2000#64 0#64, a.toNat < c'.dst.toNat ∨ c'.dst.toNat + c'.bytes.length ≤ a.toNat))) = true
          by decide) c hc b hb)⟩)
    · exact fun c hc => .inr ⟨by decide, (show ∀ c ∈ copyChunks 0x02000004#64 64#64 0x2000#64 0#64, ∀ k < c.bytes.length,
        (copyingState 0x02000004#64 64#64 0x2000#64).translate (copying 0x02000004#64 64#64 0x2000#64).team.core (copying 0x02000004#64 64#64 0x2000#64).team.ctx
            (c.dst + BitVec.ofNat 64 k) .store = .ok (c.dst + BitVec.ofNat 64 k).toNat probeLeaf
          ∧ isRemote (c.dst + BitVec.ofNat 64 k).toNat = false by decide) c hc⟩
  · refine ⟨by decide, by decide, by decide, by decide, by decide, by decide, by decide, by decide, by decide, by decide, by decide, ?_, ?_⟩
    · exact fun c hc b hb => .inr (.inl ⟨by decide, left_of
        ((show ∀ c ∈ copyChunks 0x03000004#64 0#64 64#64 0#64, ∀ b ∈ c.bytes, b.getLeft?.any (fun a => decide (a.toNat < 16384 * (copying 0x03000004#64 0#64 64#64).team.scratchUnits
          ∧ ((0x03000004#64).getLsbD 24 = true → ∀ c' ∈ copyChunks 0x03000004#64 0#64 64#64 0#64, a.toNat < c'.dst.toNat ∨ c'.dst.toNat + c'.bytes.length ≤ a.toNat))) = true
          by decide) c hc b hb)⟩)
    · exact fun c hc => .inl ⟨by decide,
        (show ∀ c ∈ copyChunks 0x03000004#64 0#64 64#64 0#64, c.dst.toNat + c.bytes.length ≤ 16384 * (copying 0x03000004#64 0#64 64#64).team.scratchUnits by decide) c hc⟩

theorem test_meets_GatherCommands : ∃ t, let r : EngineRun := { team := t, cmd := command true .running }
    let s := commanding true .running
    s.command? r.cmd.uid = some r ∧ s.team? r.team.uid = some r.team ∧ r.cmd.kept = [] ∧ r.team.state ≠ .replay ∧ r.team.scratch.wf = true
    ∧ validateCommand true r.cmd.q0 r.cmd.q1 r.cmd.q2 r.cmd.q3 = none ∧ s.commandStores r.team.core r.cmd.uid = false ∧ r.team.logs = []
    ∧ r.cmd.elements < 1 ∧ 0 + 1 * 4 ≤ 16384 * r.team.scratchUnits ∧ 64 + 1 * 4 ≤ 16384 * r.team.scratchUnits
    ∧ r.team.scratch.readNat 0 4 = 0 ∧ ∀ b < 4, s.poisonedAt (0x1000 + b) 1 = false ∧ isRemote (0x1000 + b) = false
      ∧ s.translate r.team.core r.team.ctx (0x1000#64 + BitVec.ofNat 64 b) .load = .ok (0x1000 + b) probeLeaf :=
  ⟨((commanding true .running).team? 2).getD (probeTeam 0 0 0 0), by decide⟩

/-! ### Transactions and tasks -/

/-- The one gang of a state. -/
def theGang (s : State) : Gang := (s.gang? 2 0).getD ((probeTeam 0 0 0 0).gangs.getD 0
  { threads := [], masks := [], flags := 0#12, paths := [], ages := [], serial := false, laneAges := [], unacked := 0, clock := 0
    filter := [], tx := none, lateTx := [], slot := 0, residency := .active, activeSlot := none, age := 0 })

/-- An open transaction of all lanes, with one read and one write in its log, or one that has ended. -/
def openTx : Tx :=
  { members := 0xFFFFFFFF#32, reads := [(0x1000, 0#64)], writes := [(0x1008, 0x1008#64, 5#64, 1#8)], laneWrites := [(0, 0x1008, 5#64, 1#8)]
    commit := .validating false [], doom := none, user := 0#8, sent := false, ended := none }
def endedTx : Tx := { openTx with members := 3#32, ended := some 1#64 }
def transacting (s : State) (x : Tx) : State := onGang s fun g => { g with tx := some x }

theorem test_meets_TransactionWords :
    (∃ i, words.issue = some i ∧ words.calm i.cursor.team ∧ i.active ≠ [] ∧ i.replays = false ∧ i.gang.txSent = false ∧ i.gang.tx = none
      ∧ i.cursor.gang + 1 ≤ i.team.scratchUnits ∧ i.reads [2#7] ∧ i.active.head? = some 0 ∧ i.writes 4#7 ∧ i.launch.det = false)
    ∧ (∃ i, (transacting words openTx).issue = some i ∧ (transacting words openTx).calm i.cursor.team ∧ i.active ≠ [] ∧ i.replays = false
      ∧ i.gang.txSent = false ∧ i.gang.tx = some openTx ∧ openTx.ended = none ∧ (∃ l ∈ i.active, openTx.members.getLsbD l = true)
      ∧ i.gang.unacked = 0 ∧ (transacting words openTx).behind i i.active = false
      ∧ (∀ l ∈ i.active, (transacting words openTx).readsBound i.cursor.team i.cursor.gang l = true)
      ∧ openTx.members &&& i.gang.live &&& ~~~i.path.lanes = 0#32)
    ∧ ∃ i, (transacting (alone words) endedTx).issue = some i ∧ i.gang.tx = some endedTx ∧ endedTx.ended = some 1#64 ∧ i.gang.txSent = false
      ∧ endedTx.members.getLsbD 1 = true ∧ 1 ∉ i.active :=
  ⟨at_issue (by decide) ⟨calm_of (by decide), by decide, by decide, by decide, by decide, by decide, by dsimp only [Issue.writes, Issue.reads, Lane.writable, Lane.readable, Issue.free, Issue.lastWord, Issue.unheld, Thread.hasHandler, Core.clean]; decide, by decide, by dsimp only [Issue.writes, Issue.reads, Lane.writable, Lane.readable, Issue.free, Issue.lastWord, Issue.unheld, Thread.hasHandler, Core.clean]; decide, by decide⟩,
    at_issue (by decide) ⟨calm_of (by decide), by decide⟩, at_issue (by decide) (by decide)⟩

theorem test_meets_Commits :
    (pending (.txc (.x 4) (some 7#64))).op? 60 = some (pendingOp (.txc (.x 4) (some 7#64)))
    ∧ ∃ g, let s := transacting (pending (.txc (.x 4) none)) openTx
      let o := pendingOp (.txc (.x 4) none)
      s.op? o.uid = some o ∧ s.gang? o.team o.gang = some g ∧ g.tx = some openTx ∧ openTx.ended = none
      ∧ openTx.members.getLsbD o.lane = true ∧ s.mem.wf = true ∧ openTx.commit = .validating false [] ∧ s.txAwaits o.team o.gang = false
      ∧ openTx.doom = none ∧ (∀ r ∈ openTx.reads, s.poisonedAt r.1 8 = false ∧ s.mem.readNat r.1 8 = r.2.toNat ∧ isRemote r.1 = false)
      ∧ (∀ w ∈ openTx.writes, s.poisonedAt w.1 8 = false ∧ w.1 % 8 = 0 ∧ isRemote w.1 = false) ∧ (openTx.writes.map Prod.fst).Nodup :=
  ⟨by decide, theGang (transacting (pending (.txc (.x 4) none)) openTx), by decide⟩

/-- A log with a number of reads and of writes. -/
def loggedTx (reads writes : Nat) : Tx :=
  { openTx with reads := (List.range reads).map fun k => (0x8000 + 8 * k, 0#64)
                writes := (List.range writes).map fun k => (0x8000 + 8 * k, 0#64, 0#64, 1#8), laneWrites := [] }
/-- Lane 0 accesses the doubleword at 0x1008 in a transaction. -/
def logging (x : Tx) : State := transacting (alone accessing) x

/-- With a log that holds the doubleword, one that does not, and one that is full. -/
theorem test_meets_TransactionalAccesses : ∀ x, (x = openTx ∨ x = loggedTx 0 0 ∨ x = loggedTx 512 256) →
    ∃ i, (logging x).issue = some i ∧ (logging x).calm i.cursor.team ∧ i.replays = false ∧ i.team.kill = none ∧ i.gang.unacked = 0
      ∧ i.path.lanes = 1#32 ∧ i.active = [0] ∧ i.gang.tx = some x ∧ x.ended = none ∧ x.sent = false ∧ x.members.getLsbD 0 = true
      ∧ (let va := i.val 0 2#7 + (8#11).signExtend 64
        inPrivate i.team (i.thread 0) va = false ∧ isRemote 0x1008 = false ∧ pteTracked probeLeaf = false ∧ va.toNat % 8 = 0
          ∧ (logging x).translate i.team.core i.team.ctx va .load = .ok 0x1008 probeLeaf
          ∧ (logging x).translate i.team.core i.team.ctx va .store = .ok 0x1008 probeLeaf)
      ∧ i.writes 4#7 ∧ i.reads [4#7, 2#7] ∧ (logging x).poisonedAt 0x1008 8 = false ∧ (logging x).behind i [0] = false
      ∧ (logging x).pendsBefore i.team.core i.cursor.team i.cursor.gang 0 (i.thread 0).memSeq 0x1008 8 true = false
      ∧ (x = loggedTx 512 256 → x.writes.find? (fun y => y.1 == 0x1008) = none ∧ 256 ≤ x.writes.length
        ∧ x.reads.find? (fun y => y.1 == 0x1008) = none ∧ ¬x.reads.length < 512) := by
  rintro x (rfl | rfl | rfl)
  · exact at_issue (by decide) ⟨calm_of (by decide), by decide, by decide, by decide, by decide, by decide, rfl, by decide, by decide,
      by decide, by decide, by dsimp only [Issue.writes, Issue.reads, Lane.writable, Lane.readable, Issue.free, Issue.lastWord, Issue.unheld, Thread.hasHandler, Core.clean]; decide, by dsimp only [Issue.writes, Issue.reads, Lane.writable, Lane.readable, Issue.free, Issue.lastWord, Issue.unheld, Thread.hasHandler, Core.clean]; decide, by decide, by decide, by decide, fun h => absurd (congrArg (fun y => y.writes.length) h) (by decide)⟩
  · exact at_issue (by decide) ⟨calm_of (by decide), by decide, by decide, by decide, by decide, by decide, rfl, by decide, by decide,
      by decide, by decide, by dsimp only [Issue.writes, Issue.reads, Lane.writable, Lane.readable, Issue.free, Issue.lastWord, Issue.unheld, Thread.hasHandler, Core.clean]; decide, by dsimp only [Issue.writes, Issue.reads, Lane.writable, Lane.readable, Issue.free, Issue.lastWord, Issue.unheld, Thread.hasHandler, Core.clean]; decide, by decide, by decide, by decide, fun h => absurd (congrArg (fun y => y.writes.length) h) (by decide)⟩
  · exact at_issue (by decide) ⟨calm_of (by decide), by decide, by decide, by decide, by decide, by decide, rfl, by decide, by decide,
      by decide, by decide, by dsimp only [Issue.writes, Issue.reads, Lane.writable, Lane.readable, Issue.free, Issue.lastWord, Issue.unheld, Thread.hasHandler, Core.clean]; decide, by dsimp only [Issue.writes, Issue.reads, Lane.writable, Lane.readable, Issue.free, Issue.lastWord, Issue.unheld, Thread.hasHandler, Core.clean]; decide, by decide, by decide, by decide, fun _ => by decide⟩

theorem test_meets_DoomingWords : ∃ i, (transacting words openTx).issue = some i ∧ (transacting words openTx).calm i.cursor.team
    ∧ i.replays = false ∧ i.active ≠ [] ∧ i.gang.tx = some openTx ∧ openTx.ended = none ∧ openTx.sent = false
    ∧ (∀ l ∈ i.active, openTx.members.getLsbD l = true) ∧ i.writes 4#7 ∧ i.reads [2#7, 3#7, 4#7] ∧ 1#2 ≠ 3#2
    ∧ (∀ l ∈ i.active, (i.lane l).readable 2#7 2 ∧ (i.lane l).writable 4#7 2) ∧ (3#10).toNat < i.team.barriers.length
    ∧ (0#7).toNat < i.team.timelines.length :=
  at_issue (by decide) ⟨calm_of (by decide), by decide, by decide, rfl, by decide, by decide, by decide, by dsimp only [Issue.writes, Issue.reads, Lane.writable, Lane.readable, Issue.free, Issue.lastWord, Issue.unheld, Thread.hasHandler, Core.clean]; decide, by dsimp only [Issue.writes, Issue.reads, Lane.writable, Lane.readable, Issue.free, Issue.lastWord, Issue.unheld, Thread.hasHandler, Core.clean]; decide, by decide, by dsimp only [Issue.writes, Issue.reads, Lane.writable, Lane.readable, Issue.free, Issue.lastWord, Issue.unheld, Thread.hasHandler, Core.clean]; decide,
    by decide, by decide⟩

/-- A descriptor of one gang with one unit of registers and of private memory, at 0x1000. -/
def describing (x : List W64) : State :=
  let s := onLaunch (alone (issuing (.mov 4#7 2#7) fun _ => x)) fun la => { la with partition := 0x050505#64 }
  { s with mem := s.mem.writeNat 0x1000 64 (0x10000 + 2 ^ 68 + 2 ^ 128) }

theorem test_meets_Spawns :
    (∃ i, (describing [0x1000#64, 1#64]).issue = some i ∧ i.unheld ∧ i.launch.det = false ∧ i.gang.unacked = 0
      ∧ (describing [0x1000#64, 1#64]).behind i i.active = false
      ∧ (describing [0x1000#64, 1#64]).traced? i.team.ctx i.team.launch i.team.task = none ∧ i.writes 4#7 ∧ i.reads [2#7]
      ∧ (∀ l ∈ i.active, (describing [0x1000#64, 1#64]).readsBound i.cursor.team i.cursor.gang l = true ∧ (i.lane l).readable 112#7 2)
      ∧ (let d := descOf ((describing [0x1000#64, 1#64]).mem.readBytes 0x1000 64)
        (describing [0x1000#64, 1#64]).poisonedAt 0x1000 64 = false ∧ d.mbz = 0#512 ∧ d.faults = []
          ∧ d.exceeds (describing [0x1000#64, 1#64]) i.launch = false)
      ∧ (describing [0x1000#64, 1#64]).calm i.cursor.team
      ∧ (describing [0x1000#64, 1#64]).reaches i .load 64 (fun l => i.val l 2#7) (fun _ => 0x1000))
    ∧ ∃ i, (describing [3#64, 0x1000#64]).issue = some i ∧ (∀ l ∈ i.active, (i.lane l).readable 2#7 2 ∧ (i.val l 2#7).toNat < 2 ^ 48)
      ∧ (describing [3#64, 0x1000#64]).reaches i .load 64 (fun l => i.val l (2#7 + BitVec.ofNat 7 1)) (fun _ => 0x1000) :=
  ⟨at_issue (by decide) ⟨by dsimp only [Issue.writes, Issue.reads, Lane.writable, Lane.readable, Issue.free, Issue.lastWord, Issue.unheld, Thread.hasHandler, Core.clean]; decide, by decide, by decide, by decide, by decide, by dsimp only [Issue.writes, Issue.reads, Lane.writable, Lane.readable, Issue.free, Issue.lastWord, Issue.unheld, Thread.hasHandler, Core.clean]; decide, by dsimp only [Issue.writes, Issue.reads, Lane.writable, Lane.readable, Issue.free, Issue.lastWord, Issue.unheld, Thread.hasHandler, Core.clean]; decide, by dsimp only [Issue.writes, Issue.reads, Lane.writable, Lane.readable, Issue.free, Issue.lastWord, Issue.unheld, Thread.hasHandler, Core.clean]; decide, by decide, calm_of (by decide),
      reaches_of probeLeaf (by decide) (by decide)⟩,
    at_issue (by decide) ⟨by dsimp only [Issue.writes, Issue.reads, Lane.writable, Lane.readable, Issue.free, Issue.lastWord, Issue.unheld, Thread.hasHandler, Core.clean]; decide, reaches_of probeLeaf (by decide) (by decide)⟩⟩

theorem test_meets_Tails : ∃ i, (alone (issuing (.mov 4#7 2#7) fun _ => [0x8100#64])).issue = some i ∧ i.replays = false
    ∧ i.gang.tx = none ∧ i.writes 4#7 ∧ i.reads [2#7] ∧ ∀ l ∈ i.active, (i.val l 2#7).toNat % 256 = 0 := at_issue (by decide) (by dsimp only [Issue.writes, Issue.reads, Lane.writable, Lane.readable, Issue.free, Issue.lastWord, Issue.unheld, Thread.hasHandler, Core.clean]; decide)

theorem test_meets_SpawnCompletion :
    (pending (.spawn (.x 4) 0#64)).op? 60 = some (pendingOp (.spawn (.x 4) 0#64))
    ∧ (pending (.spawnr (.x 4) 1#64 (some somePacket))).op? 60 = some (pendingOp (.spawnr (.x 4) 1#64 (some somePacket)))
    ∧ words.island.port12Up = true ∧ words.island.state = .full := by decide

/-! ### Claims -/

/-- The entry of the name that registers 2 and 3 of lane 0 hold. -/
def entry (maker : Option Nat) : Claim :=
  { name := 3#64 ++ 0#64, index := 0, maker, queue := [], handle := if maker = none then some 9#64 else none, oldHandle := none
    writer := none, lastUse := 0, backed := false }
def claimed (maker : Option Nat) : State := { alone words with claims := [entry maker] }

/-- A trace node of a task, in a state. -/
def node (task : Nat) (parent : Option Nat) (state : NodeState) (digest : W64) : Node :=
  { task, position := [[0, 0]], key := 0#128, positional := true, parent, state, rerun := false, descDigest := digest, descAddr := 0x1000#64
    taskDigest := 0#64, reads := [], newReads := [], children := [], oldEdges := none, unmatched := [], lastMatched := none
    lastChild := none, writes := [], fulfilled := [], failures := 0, remote := none }

/-- A trace of context 0, of launch 9. -/
def trace (state : TraceState) (nodes : List Node) : Trace :=
  { ctx := 0, launch := 9, state, base := 0x1000000#64, size := 0x20000, nodes, readers := [{ key := .granule 0x40, task := 1, admitted := false }]
    writers := [], propReexec := 0, propSpliced := 0, propDiscarded := 0, propNumber := 0, propDone := 0, started := [], stopping := []
    poolReturned := 0, poolDebt := 0, poolHeld := 2 ^ 63, window := 4, versions := [] }

/-- The task of a state's issuing word runs in a trace of this size, and its threads record. -/
def recording (s : State) (size : Nat) : State :=
  { onThreads s fun th => { th with recording := true } with
    traces := [{ trace .recording [node 1 none .running 0#64] with launch := 0, size }] }

theorem test_meets_ClaimWords :
    (∃ i, words.issue = some i ∧ words.calm i.cursor.team ∧ i.replays = false ∧ i.gang.tx = none ∧ i.launch.det = false
      ∧ (∀ l ∈ i.active, (i.lane l).writable 4#7 2 ∧ (i.lane l).readable 2#7 2)
      ∧ words.traced? i.team.ctx i.team.launch i.team.task = none)
    ∧ (∃ i v, (recording (claimed none) 65536).issue = some i ∧ i.active = [0] ∧ (i.thread 0).hasHandler
      ∧ (recording (claimed none) 65536).claimLack i.team i.cursor.gang (i.thread 0) (i.val 0 3#7 ++ i.val 0 2#7) = some v)
    ∧ (∃ i, (alone words).issue = some i ∧ i.active = [0] ∧ i.free ∧ (alone words).claim? (i.val 0 3#7 ++ i.val 0 2#7) = none
      ∧ ((alone words).claimsOf (caddyHome (i.val 0 3#7 ++ i.val 0 2#7))).length < 131072 + (alone words).backingEntries / 4)
    ∧ (∃ i, (claimed none).issue = some i ∧ i.active = [0] ∧ (claimed none).claim? (i.val 0 3#7 ++ i.val 0 2#7) = some (entry none)
      ∧ (claimed none).mayTakeOver i.task.uid none = false)
    ∧ ∀ m, (m = 1 ∨ m = 8) → ∃ i, (claimed (some m)).issue = some i ∧ i.active = [0] ∧ i.task.uid = 1
      ∧ (claimed (some m)).claim? (i.val 0 3#7 ++ i.val 0 2#7) = some (entry (some m)) := by
  refine ⟨at_issue (by decide) ⟨calm_of (by decide), by dsimp only [Issue.writes, Issue.reads, Lane.writable, Lane.readable, Issue.free, Issue.lastWord, Issue.unheld, Thread.hasHandler, Core.clean]; decide⟩,
    ⟨_, _, (Option.some_get (show _ = true by decide)).symm, by decide, by dsimp only [Issue.writes, Issue.reads, Lane.writable, Lane.readable, Issue.free, Issue.lastWord, Issue.unheld, Thread.hasHandler, Core.clean]; decide, (Option.some_get (show _ = true by decide)).symm⟩, at_issue (by decide) (by dsimp only [Issue.writes, Issue.reads, Lane.writable, Lane.readable, Issue.free, Issue.lastWord, Issue.unheld, Thread.hasHandler, Core.clean]; decide), at_issue (by decide) (by decide), ?_⟩
  rintro m (rfl | rfl)
  · exact at_issue (by decide) (by decide)
  · exact at_issue (by decide) (by decide)

theorem test_meets_EntryWords :
    (∃ i, (claimed (some 1)).issue = some i ∧ i.replays = false ∧ i.gang.tx = none ∧ i.gang.unacked = 0
      ∧ (claimed (some 1)).behind i i.active = false
      ∧ (∀ l ∈ i.active, (i.lane l).readable 2#7 2 ∧ (claimed (some 1)).readsBound i.cursor.team i.cursor.gang l = true) ∧ i.reads [4#7]
      ∧ ∀ l ∈ i.active, (claimed (some 1)).claim? (i.val l 3#7 ++ i.val l 2#7) = some (entry (some i.task.uid)))
    ∧ (∃ i, (claimed none).issue = some i ∧ ∀ l ∈ i.active, (claimed none).pinned (i.val l 3#7 ++ i.val l 2#7) = false
      ∧ (claimed none).claim? (i.val l 3#7 ++ i.val l 2#7) = some (entry none))
    ∧ ∀ m, (m = none ∨ m = some 8) → ∃ i, (claimed m).issue = some i ∧ i.active = [0] ∧ (i.thread 0).hasHandler
      ∧ (claimed m).claim? (i.val 0 3#7 ++ i.val 0 2#7) = some (entry m) ∧ m ≠ some i.task.uid := by
  refine ⟨at_issue (by decide) (by dsimp only [Issue.writes, Issue.reads, Lane.writable, Lane.readable, Issue.free, Issue.lastWord, Issue.unheld, Thread.hasHandler, Core.clean]; decide), at_issue (by decide) (by decide), ?_⟩
  rintro m (rfl | rfl)
  · exact at_issue (by decide) (by dsimp only [Issue.writes, Issue.reads, Lane.writable, Lane.readable, Issue.free, Issue.lastWord, Issue.unheld, Thread.hasHandler, Core.clean]; decide)
  · exact at_issue (by decide) (by dsimp only [Issue.writes, Issue.reads, Lane.writable, Lane.readable, Issue.free, Issue.lastWord, Issue.unheld, Thread.hasHandler, Core.clean]; decide)

theorem test_meets_ClaimDelivery : ∃ u, let s := pending (.claim 5#128 (.x 4) (.x 5) (some (0, 9#64)))
    s.op? 60 = some (pendingOp (.claim 5#128 (.x 4) (.x 5) (some (0, 9#64)))) ∧ s.team? 2 = some u ∧ u.state ≠ .saved
    ∧ s.detLaunch u.launch = false := ⟨(words.team? 2).getD (probeTeam 0 0 0 0), by decide⟩

/-! ### Traces and re-execution -/

/-- A task of the one launch, by uid. -/
def someTask (s : State) (uid : Nat) : Task := (s.task? uid).getD (rootTask (launchOfRecord 0 0#64 0 0 0 none 0) 0 0 0)

/-- The context has a trace, of a launch whose record is at 0x8100. -/
def tracing (s : State) (t : Trace) : State :=
  { s with traces := [t], launches := s.launches ++ [launchOfRecord 9 0x8100#64 0 0 0 none 0] }

theorem test_meets_TraceWords :
    (∃ i, words.issue = some i ∧ i.writes 4#7 ∧ i.reads [2#7] ∧ i.replays = false ∧ i.gang.unacked = 0)
    ∧ (∃ x, (tracing words (trace .ready [])).traceNamed? 0 0x8100#64 = some x) ∧ words.traceNamed? 0 0x8100#64 = none :=
  ⟨at_issue (by decide) (by dsimp only [Issue.writes, Issue.reads, Lane.writable, Lane.readable, Issue.free, Issue.lastWord, Issue.unheld, Thread.hasHandler, Core.clean]; decide), ⟨trace .ready [], by decide⟩, by decide⟩

/-- Core 0 translates context 0 by a tracked leaf of 64 GiB, source or derived, and a trace acts. -/
def editing (leaf : W64) : State :=
  onCore (tracing (alone accessing) (trace .ready [node 1 none .live 0#64])) fun c => { c with tlb := [{ ctx := 0, base := 0, size := 2 ^ 36, leaf }] }

/-- An entry of an EDIT of granule 0x40 in core 0's path, and a trace whose task 1 has read it. -/
def edited : State := onCore (tracing words (trace .ready [node 1 none .live 0#64])) fun c =>
  { c with stores := [pushed 0x1008 (List.replicate 8 9#8) (.edit 0)] }

theorem test_meets_Edits_completion :
    let y := pushed 0x1008 (List.replicate 8 9#8) (.edit 0)
    (edited.core 0).stores = [] ++ y :: [] ∧ y.command = none ∧ y.deferred = false ∧ y.sent = false ∧ edited.storeWaits 0 y = false
    ∧ isRemote y.pa = false ∧ edited.mem.wf = true ∧ edited.l2 = [] ∧ edited.actingTrace? 0 = some (trace .ready [node 1 none .live 0#64])
    ∧ (0x1008#64).extractLsb' 6 50 = 0x40#50 ∧ edited.mem.readBytes 0x1000 64 ≠ (edited.mem.writeBytes 0x1008 y.data).readBytes 0x1000 64 := by decide

theorem test_meets_Edits :
    (∃ i, (alone accessing).issue = some i ∧ i.unheld ∧ i.reads [3#7, 2#7]
      ∧ (∀ l ∈ i.active, ∀ leaf, (alone accessing).translate i.team.core i.team.ctx (i.val l 2#7 + (8#11).signExtend 64) .store = .ok 0x1008 leaf →
          pteTracked leaf = false ∨ (alone accessing).actingTrace? i.team.ctx = none)
      ∧ (alone accessing).finds i .store 8 (fun l => i.val l 2#7 + (8#11).signExtend 64) (fun _ => 0x1008))
    ∧ ∀ leaf, (leaf = 0x107F#64 ∨ leaf = 0x10FF#64) → ∃ i, (editing leaf).issue = some i ∧ i.unheld ∧ i.reads [3#7, 2#7] ∧ i.active = [0]
      ∧ (editing leaf).translate i.team.core i.team.ctx (i.val 0 2#7 + (8#11).signExtend 64) .store = .ok 0x1008 leaf ∧ pteTracked leaf = true
      ∧ (editing leaf).actingTrace? i.team.ctx = some (trace .ready [node 1 none .live 0#64]) ∧ pteDerived leaf = (leaf == 0x10FF#64)
      ∧ 9 ≠ i.team.launch ∧ (i.thread 0).hasHandler
      ∧ (editing leaf).finds i .store 8 (fun l => i.val l 2#7 + (8#11).signExtend 64) (fun _ => 0x1008) := by
  refine ⟨at_issue (by decide) ⟨by dsimp only [Issue.writes, Issue.reads, Lane.writable, Lane.readable, Issue.free, Issue.lastWord, Issue.unheld, Thread.hasHandler, Core.clean]; decide, by dsimp only [Issue.writes, Issue.reads, Lane.writable, Lane.readable, Issue.free, Issue.lastWord, Issue.unheld, Thread.hasHandler, Core.clean]; decide, fun _ _ _ _ => .inr (by decide), finds_of probeLeaf (by decide)⟩, ?_⟩
  rintro leaf (rfl | rfl)
  · exact at_issue (by decide) ⟨by dsimp only [Issue.writes, Issue.reads, Lane.writable, Lane.readable, Issue.free, Issue.lastWord, Issue.unheld, Thread.hasHandler, Core.clean]; decide, by dsimp only [Issue.writes, Issue.reads, Lane.writable, Lane.readable, Issue.free, Issue.lastWord, Issue.unheld, Thread.hasHandler, Core.clean]; decide, by decide, by decide, by decide, by decide, by decide, by decide, by dsimp only [Issue.writes, Issue.reads, Lane.writable, Lane.readable, Issue.free, Issue.lastWord, Issue.unheld, Thread.hasHandler, Core.clean]; decide, finds_of 0x107F#64 (by decide)⟩
  · exact at_issue (by decide) ⟨by dsimp only [Issue.writes, Issue.reads, Lane.writable, Lane.readable, Issue.free, Issue.lastWord, Issue.unheld, Thread.hasHandler, Core.clean]; decide, by dsimp only [Issue.writes, Issue.reads, Lane.writable, Lane.readable, Issue.free, Issue.lastWord, Issue.unheld, Thread.hasHandler, Core.clean]; decide, by decide, by decide, by decide, by decide, by decide, by decide, by dsimp only [Issue.writes, Issue.reads, Lane.writable, Lane.readable, Issue.free, Issue.lastWord, Issue.unheld, Thread.hasHandler, Core.clean]; decide, finds_of 0x10FF#64 (by decide)⟩

/-- A trace of the launch of a state's issuing word, whose task is 1, between task 8 and task 9; task 10 is its child. -/
def relations (me writer : NodeState) (reader : Nat) (writers : List (Nat × Nat)) : Trace :=
  { trace .recording [{ node 8 none writer 0#64 with position := [[1, 0]] }, { node 1 none me 0#64 with position := [[5, 0]] },
      { node 9 none .running 0#64 with position := [[9, 0]], fulfilled := [7#128] }, { node 10 (some 1) .live 0#64 with position := [[5, 0], [1, 0]] }] with
    launch := 0, readers := [{ key := .granule 0x40, task := reader, admitted := false }], writers }

/-- Lane 0 accesses 0x1008 by a tracked leaf, with recording on, and this trace acts. -/
def tracked (leaf : W64) (tr : Trace) : State :=
  { onCore (onThreads (alone accessing) fun th => { th with recording := true }) fun c =>
      { c with tlb := [{ ctx := 0, base := 0, size := 2 ^ 36, leaf }] } with traces := [tr] }

theorem test_tracked_access : ∀ leaf tr, ((leaf = 0x10FF#64 ∧ tr = trace .ready []) ∨ (leaf = 0x107F#64 ∧ tr = relations .running .running 9 [])
      ∨ (leaf = 0x10FF#64 ∧ (tr = relations .running .running 9 [(0x40, 8)] ∨ tr = relations .running .running 8 []
        ∨ tr = relations .running .running 9 [] ∨ tr = relations .reexec .running 9 [(0x40, 10)]
        ∨ tr = relations .running .running 8 [(0x40, 8)] ∨ tr = relations .running .running 8 [(0x40, 9)]))) →
    ∃ i, (tracked leaf tr).issue = some i ∧ i.unheld ∧ (tracked leaf tr).calm i.cursor.team ∧ i.path.lanes = 1#32 ∧ i.active = [0]
      ∧ (i.thread 0).hasHandler ∧ (i.thread 0).recording = true ∧ i.writes 4#7 ∧ i.reads [3#7, 2#7] ∧ i.team.task = 1 ∧ i.team.launch = 0
      ∧ (let va := i.val 0 2#7 + (8#11).signExtend 64
        va.toNat % 8 = 0 ∧ va.toNat % 2 ^ 56 / 64 = 0x40 ∧ isRemote 0x1008 = false ∧ pteTracked leaf = true
          ∧ (tracked leaf tr).translate i.team.core i.team.ctx va .store = .ok 0x1008 leaf
          ∧ (tracked leaf tr).translate i.team.core i.team.ctx va .load = .ok 0x1008 leaf)
      ∧ (tracked leaf tr).trace? i.team.ctx = some tr ∧ (∀ x ∈ (tracked leaf tr).l2, x.poisoned = false)
      ∧ ((tracked leaf tr).core i.team.core).stores = [] ∧ ((tracked leaf tr).core i.team.core).clean
      ∧ (tracked leaf tr).readsBound i.cursor.team i.cursor.gang 0 = true ∧ (tracked leaf tr).behind i [0] = false
      ∧ (tracked leaf tr).pendsBefore i.team.core i.cursor.team i.cursor.gang 0 (i.thread 0).memSeq 0x1008 8 true = false
      ∧ (tracked leaf tr).Canonical ∧ i.gang.filter = [] := by
  rintro leaf tr (⟨rfl, rfl⟩ | ⟨rfl, rfl⟩ | ⟨rfl, rfl | rfl | rfl | rfl | rfl | rfl⟩) <;>
    exact at_issue (by decide) ⟨by dsimp only [Issue.writes, Issue.reads, Lane.writable, Lane.readable, Issue.free, Issue.lastWord, Issue.unheld, Thread.hasHandler, Core.clean]; decide, calm_of (by decide), by decide, by decide, by dsimp only [Issue.writes, Issue.reads, Lane.writable, Lane.readable, Issue.free, Issue.lastWord, Issue.unheld, Thread.hasHandler, Core.clean]; decide, by decide, by dsimp only [Issue.writes, Issue.reads, Lane.writable, Lane.readable, Issue.free, Issue.lastWord, Issue.unheld, Thread.hasHandler, Core.clean]; decide, by dsimp only [Issue.writes, Issue.reads, Lane.writable, Lane.readable, Issue.free, Issue.lastWord, Issue.unheld, Thread.hasHandler, Core.clean]; decide, by decide, by decide,
      by decide, by decide, by decide, by decide, by dsimp only [Issue.writes, Issue.reads, Lane.writable, Lane.readable, Issue.free, Issue.lastWord, Issue.unheld, Thread.hasHandler, Core.clean]; decide, by decide, by decide, by decide, by unfold State.Canonical; decide, by decide⟩

/-- A store outside the launch's trace; to a source page; over another task's granule; before a later task's read; over
nothing, and over a child's granule in a re-execution. -/
theorem test_meets_TracedStores :
    (trace .ready []).launch ≠ 0 ∧ pteDerived 0x107F#64 = false ∧ pteDerived 0x10FF#64 = true
    ∧ (let tr := relations .running .running 9 [(0x40, 8)]
      (tr.writers.find? fun w => w.1 == 0x40).map Prod.snd = some 8 ∧ tr.descends 8 1 = false)
    ∧ (let tr := relations .running .running 8 []
      (tr.writers.find? fun w => w.1 == 0x40).map Prod.snd = none
        ∧ ∃ r ∈ tr.readers, r.key = .granule 0x40 ∧ r.task ≠ 1 ∧ tr.before r.task 1 = true ∧ r.admitted = false)
    ∧ ∀ tr, (tr = relations .running .running 9 [] ∨ tr = relations .reexec .running 9 [(0x40, 10)]) →
      tr.state ≠ .released ∧ tr.state ≠ .failed ∧ tr.launch = 0 ∧ tr.room 0 16 = true
      ∧ ¬(∃ r ∈ tr.readers, r.key = .granule 0x40 ∧ r.task ≠ 1 ∧ tr.before r.task 1 = true ∧ r.admitted = false)
      ∧ ((tr.writers.find? fun w => w.1 == 0x40).map Prod.snd = none
        ∨ ((tr.writers.find? fun w => w.1 == 0x40).map Prod.snd = some 10 ∧ (tr.node? 1).map Node.state = some .reexec ∧ tr.descends 10 1 = true)) := by
  refine ⟨by decide, by decide, by decide, by decide, by decide, ?_⟩
  rintro tr (rfl | rfl) <;> decide

/-- A read of what an earlier task that is not LIVE has written; of what a later one has, admitted or not; of what none has. -/
theorem test_meets_TracedReads :
    (let tr := relations .running .running 8 [(0x40, 8)]
      ∃ w ∈ tr.nodes, (tr.writers.find? fun w => w.1 == 0x40).map Prod.snd = some 8 ∧ tr.node? 8 = some w ∧ w.task ≠ 1
        ∧ tr.before w.task 1 = true ∧ w.state ≠ .live)
    ∧ (let tr := relations .running .running 8 [(0x40, 9)]
      ∃ w ∈ tr.nodes, (tr.writers.find? fun w => w.1 == 0x40).map Prod.snd = some 9 ∧ tr.node? 9 = some w ∧ w.task ≠ 1
        ∧ tr.before w.task 1 = false ∧ w.fulfilled = [7#128])
    ∧ (∃ i, (onGang (tracked 0x10FF#64 (relations .running .running 8 [])) fun g => { g with filter := [.granule 0x40] }).issue = some i
      ∧ ReadKey.granule 0x40 ∈ i.gang.filter)
    ∧ ∀ l, (relations .running l 8 []).room 8 16 = true ∧ (relations .running l 8 []).writers = [] := by
  refine ⟨by decide, by decide, at_issue (by decide) (by decide), fun l => ?_⟩
  cases l <;> decide

/-- Register 2 names the trace of launch 9, which has this state and one STALE node or none. -/
def proposing (state : TraceState) (busy : Bool) : State :=
  tracing (alone (issuing (.mov 4#7 2#7) fun _ => [0x8100#64])) (trace state (if busy then [node 1 none .stale 0#64] else []))

theorem test_meets_Propagations :
    (∃ i, words.issue = some i ∧ words.calm i.cursor.team ∧ i.replays = false ∧ i.gang.tx = none ∧ i.gang.unacked = 0 ∧ i.writes 4#7 ∧ i.reads [2#7]
      ∧ words.behind i i.active = false ∧ (∀ l ∈ i.active, words.readsBound i.cursor.team i.cursor.gang l = true
        ∧ words.traceNamed? i.team.ctx (i.val l 2#7) = none))
    ∧ (∃ i, (proposing .recording false).issue = some i ∧ i.active = [0] ∧ (proposing .recording false).traceNamed? i.team.ctx (i.val 0 2#7)
        = some (trace .recording []) ∧ (proposing .recording false).trace? i.team.ctx = some (trace .recording []) ∧ 9 ≠ i.team.launch)
    ∧ ∃ i, (proposing .ready true).issue = some i ∧ i.active = [0] ∧ (proposing .ready true).traceNamed? i.team.ctx (i.val 0 2#7)
        = some (trace .ready [node 1 none .stale 0#64]) ∧ 9 ≠ i.team.launch ∧ (∃ n ∈ (trace .ready [node 1 none .stale 0#64]).nodes, n.busy = true)
        ∧ (proposing .ready true).props = [] :=
  ⟨at_issue (by decide) ⟨calm_of (by decide), by dsimp only [Issue.writes, Issue.reads, Lane.writable, Lane.readable, Issue.free, Issue.lastWord, Issue.unheld, Thread.hasHandler, Core.clean]; decide⟩, at_issue (by decide) (by decide), at_issue (by decide) (by decide)⟩

/-- Slot 7 is FULL. -/
def full : State := onTeam words fun t => { t with blocks := t.blocks.set 7 (some { lanes := 1#32, count := 8 }) }

theorem test_meets_RegisterBlocks :
    (∃ i, words.issue = some i ∧ words.calm i.cursor.team ∧ i.replays = false ∧ i.gang.tx = none ∧ (7#7).toNat < 8 ∧ i.team.scratchUnits ≠ 0
      ∧ i.team.blocks.length = 8 ∧ i.active ≠ []
      ∧ (∀ l ∈ i.active, (i.lane l).readable 2#7 8 ∧ (i.lane l).writable 88#7 8) ∧ i.team.blocks[(7#7).toNat]? = some none
      ∧ i.team.scratch.wf = true ∧ i.team.logs = []
      ∧ ∀ l ∈ i.active, words.applied i.team.core (i.thread l).relStore = true
        ∧ words.readsBoundBefore i.cursor.team i.cursor.gang l (i.thread l).relRead = true
        ∧ words.deferredBefore i.team.core i.cursor.team i.cursor.gang l (i.thread l).relRead = false)
    ∧ (∃ i, let s := onThreads forwarding fun th => { th with relStore := 51 }
      s.issue = some i ∧ 0 ∈ i.active ∧ s.applied i.team.core (i.thread 0).relStore = false ∧ ∀ l ∈ i.active, (i.lane l).writable 88#7 8)
    ∧ ∃ i, full.issue = some i ∧ full.calm i.cursor.team ∧ (∀ l ∈ i.active, (i.lane l).writable 88#7 8 ∧ (i.lane l).readable 88#7 8)
      ∧ i.team.blocks[(7#7).toNat]? = some (some { lanes := 1#32, count := (7#3).toNat + 1 }) :=
  ⟨at_issue (by decide) ⟨calm_of (by decide), by dsimp only [Issue.writes, Issue.reads, Lane.writable, Lane.readable, Issue.free, Issue.lastWord, Issue.unheld, Thread.hasHandler, Core.clean]; decide⟩, at_issue (by decide) (by dsimp only [Issue.writes, Issue.reads, Lane.writable, Lane.readable, Issue.free, Issue.lastWord, Issue.unheld, Thread.hasHandler, Core.clean]; decide), at_issue (by decide) ⟨calm_of (by decide), by dsimp only [Issue.writes, Issue.reads, Lane.writable, Lane.readable, Issue.free, Issue.lastWord, Issue.unheld, Thread.hasHandler, Core.clean]; decide⟩⟩

/-! ### Matrix words -/

/-- Slots 0 and 1 hold a format; register 3 of lane 0 holds a control word. -/
def multiplying (paired : Bool) (slot cw : W64) : State :=
  onLaunch (issuing (.mov 4#7 2#7) fun _ => [0#64, cw]) fun la =>
    { la with slots := [slot, slot, 0#64, 0#64, 0#64, 0#64, 0#64, 0#64], control := if paired then 8#64 else 0#64 }

/-- An F32 K-step at offset 64 with fixed scales, and a paired sparse INT8 one with register and memory scales. -/
def denseStep : State := multiplying false 1#64 0x8000040#64
def sparseStep : State := multiplying true 0x15#64 0x880000000#64

/-- Latch 0 holds a run of three registers. -/
def latched (s : State) : State :=
  onCore s fun c => { c with latches := c.latches.set 0 (some { run := 3, rows := List.replicate 16 (List.replicate 48 1#8), scales := [] }) }

/-- With an empty latch, and with one that holds the run. -/
theorem test_meets_MatrixMultiply :
    (∀ s, (s = denseStep ∨ s = latched denseStep) → ∃ i held, s.issue = some i ∧ s.calm i.cursor.team ∧ i.replays = false
      ∧ i.uniform = true ∧ i.gang.tx = none ∧ i.gang.activeSlot = some 0
      ∧ (s.core i.team.core).latches[0]? = some held ∧ (i.lane 0).readable 3#7 1
      ∧ (let cw := i.val 0 3#7
        let slotA := i.launch.slots.getD (cw.extractLsb' 24 3).toNat 0#64
        let fa := (slotA.extractLsb' 0 4).toNat
        let ty := (cw.extractLsb' 30 2).toNat
        let addr := (cw.extractLsb' 0 20).toNat
        cw.extractLsb' 56 8 = 0#8 ∧ cw.extractLsb' 20 4 = 0#4 ∧ ty ≠ 3 ∧ (3#7).toNat < i.team.accTiles ∧ ty = typeOfFormat fa
          ∧ slotA.extractLsb' 4 2 ≠ 1#2 ∧ (cw.extractLsb' 32 24).toNat = 0 ∧ addr % 64 = 0 ∧ addr + 768 ≤ 16384 * i.team.scratchUnits)
      ∧ (∀ l ∈ i.active, (i.lane l).readable 4#7 3) ∧ i.team.logs = [] ∧ ∀ q ∈ s.ops, q.team ≠ i.cursor.team)
    ∧ ∃ i, sparseStep.issue = some i ∧ i.uniform = true ∧ i.launch.paired = true
      ∧ (let cw := i.val 0 3#7
        let slotA := i.launch.slots.getD (cw.extractLsb' 24 3).toNat 0#64
        let fa := (slotA.extractLsb' 0 4).toNat
        cw.extractLsb' 56 8 = 0#8 ∧ cw.extractLsb' 20 4 = 0#4 ∧ (cw.extractLsb' 30 2).toNat = typeOfFormat fa ∧ slotA.extractLsb' 4 2 = 1#2
          ∧ sparseLegal (slotWidth fa / 8) true (cw.extractLsb' 32 24).toNat = true ∧ (cw.extractLsb' 0 20).toNat + 784 ≤ 16384 * i.team.scratchUnits)
      ∧ ∀ l ∈ i.active, (i.lane l).readable 4#7 7 := by
  refine ⟨?_, at_issue (by decide) (by dsimp only [Issue.writes, Issue.reads, Lane.writable, Lane.readable, Issue.free, Issue.lastWord, Issue.unheld, Thread.hasHandler, Core.clean]; decide)⟩
  rintro s (rfl | rfl)
  · exact ⟨_, none, (Option.some_get (show _ = true by decide)).symm, calm_of (by decide), by dsimp only [Issue.writes, Issue.reads, Lane.writable, Lane.readable, Issue.free, Issue.lastWord, Issue.unheld, Thread.hasHandler, Core.clean]; decide⟩
  · exact ⟨_, some _, (Option.some_get (show _ = true by decide)).symm, calm_of (by decide), by decide, by decide, by decide, by decide, rfl,
      by dsimp only [Issue.writes, Issue.reads, Lane.writable, Lane.readable, Issue.free, Issue.lastWord, Issue.unheld, Thread.hasHandler, Core.clean]; decide⟩

theorem test_meets_MatrixUniform :
    (∃ i, (alone words).issue = some i ∧ i.replays = false ∧ i.active ≠ [] ∧ i.uniform = false ∧ ∀ l ∈ lanesOf i.path.lanes, (i.thread l).hasHandler)
    ∧ ∃ i, (onPath words fun p => { p with guard := some (0#3, 0#1) }).issue = some i ∧ i.active = [] :=
  ⟨at_issue (by decide) (by dsimp only [Issue.writes, Issue.reads, Lane.writable, Lane.readable, Issue.free, Issue.lastWord, Issue.unheld, Thread.hasHandler, Core.clean]; decide), at_issue (by decide) (by decide)⟩

/-- A K-step of zeros in a format. -/
def kStep (format accType : Nat) : MmaReq :=
  { tile := 0, accType, aFormat := format, bFormat := format, aScales := List.replicate 16 127#8, bScales := List.replicate 16 127#8
    aRows := List.replicate 16 (List.replicate 48 0#8), bCols := List.replicate 16 (List.replicate 48 0#8), paired := false
    overwrite := false, chain := 60, before := [], base := none }

theorem finite_of {xs : List Fp} (h : (xs.all fun x => match x with | .fin .. => true | _ => false) = true) :
    ∀ x ∈ xs, ∃ neg m e, x = .fin neg m e := by
  intro x hx
  have := List.all_eq_true.mp h x hx
  cases x with
  | fin n m e => exact ⟨n, m, e, rfl⟩
  | _ => simp at this

theorem test_meets_MatrixElements :
    (slotInteger 5 = true ∧ slotWidth (kStep 5 2).bFormat = slotWidth (kStep 5 2).aFormat)
    ∧ slotInteger 1 = false ∧ (∀ x ∈ decodeRow 1 127#8 (List.replicate 48 0#8) ++ decodeRow 1 127#8 (List.replicate 48 0#8), ∃ neg m e, x = .fin neg m e)
    ∧ ∃ neg m e, f32.decode 0x3F800000 = .fin neg m e :=
  ⟨by decide, by decide, finite_of (by decide), finite_of (xs := [f32.decode 0x3F800000]) (by decide) _ (by simp)⟩

theorem test_meets_MatrixCompletion : ∃ u, let s := pending (.mma (kStep 1 0))
    let op := pendingOp (.mma (kStep 1 0))
    s.op? op.uid = some op ∧ firstInArrays op s.ops = true ∧ s.team? op.team = some u ∧ op.live = true ∧ u.acc.wf = true
    ∧ u.follower.wf = true ∧ u.kill = none ∧ op.gang = 0 ∧ u.gangs ≠ [] := ⟨(words.team? 2).getD (probeTeam 0 0 0 0), by decide⟩

theorem test_meets_AccumulatorWords :
    (∃ i, words.issue = some i ∧ words.calm i.cursor.team ∧ i.replays = false ∧ i.uniform = true ∧ i.team.acc.wf = true ∧ i.team.follower.wf = true
      ∧ i.team.acc.era = 0 ∧ i.team.follower.era = 0 ∧ (3#7).toNat < i.team.accTiles ∧ ((2#7).toNat % 2 = 0 ∧ (2#7).toNat + 1 < i.team.accTiles)
      ∧ (∀ l ∈ i.active, (i.lane l).readable 88#7 8 ∧ (i.lane l).writable 88#7 8) ∧ (2#7).toNat + (1#7).toNat < i.team.accTiles
      ∧ ∀ q ∈ words.ops, q.team ≠ i.cursor.team)
    ∧ ∃ i, (multiplying true 0#64 0#64).issue = some i ∧ i.uniform = true ∧ i.launch.paired = true :=
  ⟨at_issue (by decide) ⟨calm_of (by decide), by dsimp only [Issue.writes, Issue.reads, Lane.writable, Lane.readable, Issue.free, Issue.lastWord, Issue.unheld, Thread.hasHandler, Core.clean]; decide⟩, at_issue (by decide) (by decide)⟩

/-- An ACCRD of tile 0 in F32: four registers a lane. -/
def readTile : AccReq :=
  { tile := 0, accType := 0, follower := false, slot := 1#64, before := [], given := []
    dests := (List.range 32).map fun l => (l, [.x 4, .x 5, .x 6, .x 7]) }

theorem test_meets_AccumulatorRead : ∃ u g, let s := pending (.accrd readTile)
    let op := pendingOp (.accrd readTile)
    s.op? op.uid = some op ∧ s.team? op.team = some u ∧ op.gang = 0 ∧ u.gangs[0]? = some g ∧ op.live = true
    ∧ (readTile.dests.map Prod.fst).Nodup ∧ ∀ x ∈ readTile.dests, x.2.length = slotWidth (readTile.slot.extractLsb' 0 4).toNat / 8 :=
  ⟨(words.team? 2).getD (probeTeam 0 0 0 0), theGang words, by decide⟩

/-- 1.0 in BF16, -1 in INT8, and a value beyond M8. -/
theorem test_meets_TileConversion :
    (1, f32) ∈ [(0, f64), (1, f32), (2, f16), (3, bf16), (9, e4m3), (10, e5m2)]
    ∧ (f32.decode 0x7FC00000).isNan = true ∧ f32.decode 0xFF800000 = .inf true
    ∧ (∃ m e, f32.decode 0x3F800000 = .fin false m e ∧ (f32.decode 0x3F800000).real = (1 : Int) ∧ |(f32.decode 0x3F800000).real| ≤ 4096)
    ∧ ∃ m e, f32.decode 0x46000000 = .fin false m e ∧ 4096 < |(f32.decode 0x46000000).real| := by
  have one : (f32.decode 0x3F800000).real = 1 := real_of (m := 2 ^ 23) (n := false) (e := -23) (by decide) (by norm_num)
  have big : (f32.decode 0x46000000).real = 8192 := real_of (m := 2 ^ 23) (n := false) (e := -10) (by decide) (by norm_num)
  refine ⟨by decide, by decide, by decide, ⟨2 ^ 23, -23, by decide, by rw [one]; norm_num, by rw [one]; norm_num⟩,
    ⟨2 ^ 23, -10, by decide, by rw [big]; norm_num⟩⟩

/-! ### Votes, launches, tasks -/

/-- No path is in flight, and the clause at 0x10000 is as given. -/
def voting (ws : List W32) : State :=
  let s := onGang words fun g => { g with paths := [] }
  { s with mem := ws.zipIdx.foldl (fun m w => m.writeNat (0x10000 + 4 * w.2) 4 w.1.toNat) Memory.empty }

/-- MOV x4, x2 behind a header; an empty word as header; EXIT before another word. -/
def goodClause : List W32 := [0xF000FF10#32, packR 0x25#7 0#4 4#7 2#7 0#7]
def badHeader : List W32 := [0#32]
def badWord : List W32 := [0xF000FF20#32, 0x12000000#32, 0x12000000#32]

theorem voting_meets (ws : List W32) (h : ∀ th ∈ (theGang (voting ws)).threads,
    th.exited = false ∧ th.blocked = .none ∧ th.pc = 0x10000#64 ∧ th.resume = none ∧ th.trapDepth = false)
    (n : (theGang (voting ws)).threads.length = 32) : ∀ l th, (theGang (voting ws)).threads[l]? = some th →
      if (BitVec.allOnes 32).getLsbD l = true
      then th.exited = false ∧ th.blocked = .none ∧ th.pc = 0x10000#64 ∧ th.resume = none ∧ th.trapDepth = false
      else th.exited = true ∨ th.blocked ≠ .none := by
  intro l th e
  have hl : l < 32 := n ▸ (List.getElem?_eq_some_iff.mp e).1
  rw [if_pos (by rw [BitVec.getLsbD_allOnes]; exact decide_eq_true hl)]
  exact h th (List.mem_of_getElem? e)

theorem test_meets_GangVotes : ∀ ws, (ws = goodClause ∨ ws = badHeader ∨ ws = badWord) →
    (∃ t, (voting ws).team? 2 = some t ∧ t.state = .running ∧ (voting ws).gang? 2 0 = some (theGang (voting ws)) ∧ ((voting ws).core t.core).icache = []
      ∧ ∀ j < 16, isRemote (0x10000 + 4 * j) = false ∧ (voting ws).poisonedAt (0x10000 + 4 * j) 4 = false
        ∧ (voting ws).translate t.core t.ctx (0x10000#64 + BitVec.ofNat 64 (4 * j)) .fetch = .ok (0x10000 + 4 * j) probeLeaf)
    ∧ (let g := theGang (voting ws)
      g.residency = .active ∧ g.paths = [] ∧ g.serial = false ∧ g.flags = 0#12 ∧ g.threads.length = 32
      ∧ ∀ l th, g.threads[l]? = some th → if (BitVec.allOnes 32).getLsbD l = true
        then th.exited = false ∧ th.blocked = .none ∧ th.pc = 0x10000#64 ∧ th.resume = none ∧ th.trapDepth = false
        else th.exited = true ∨ th.blocked ≠ .none) := by
  rintro ws (rfl | rfl | rfl)
  · exact ⟨⟨(words.team? 2).map (fun t => { t with gangs := [theGang (voting goodClause)] }) |>.getD (probeTeam 0 0 0 0), by decide⟩,
      by decide, by decide, by decide, by decide, by decide, voting_meets _ (by decide) (by decide)⟩
  · exact ⟨⟨(words.team? 2).map (fun t => { t with gangs := [theGang (voting badHeader)] }) |>.getD (probeTeam 0 0 0 0), by decide⟩,
      by decide, by decide, by decide, by decide, by decide, voting_meets _ (by decide) (by decide)⟩
  · exact ⟨⟨(words.team? 2).map (fun t => { t with gangs := [theGang (voting badWord)] }) |>.getD (probeTeam 0 0 0 0), by decide⟩,
      by decide, by decide, by decide, by decide, by decide, voting_meets _ (by decide) (by decide)⟩

theorem test_meets_GangVotes_clauses :
    (Clause.header 0xF000FF10#32 ∧ Clause.flags 0xF000FF10#32 goodClause.tail ∧ ¬Clause.offends goodClause 1)
    ∧ ¬Clause.header 0#32 ∧ Clause.header 0xF000FF20#32 ∧ Clause.flags 0xF000FF20#32 badWord.tail ∧ Clause.offends badWord 1 := by
  refine ⟨⟨by unfold Clause.header; decide, by show (0xF000FF10#32).extractLsb' 12 4 = 15#4 ∧ (0xF000FF10#32).extractLsb' 8 4 = 15#4; decide, ?_⟩, by unfold Clause.header; decide,
    by unfold Clause.header; decide, by show (0xF000FF20#32).extractLsb' 12 4 = 15#4 ∧ (0xF000FF20#32).extractLsb' 8 4 = 15#4; decide, .inr (.inr (.inl (by decide)))⟩
  rintro (h | ⟨h | h, _⟩ | ⟨_, h⟩ | ⟨_, h, _⟩)
  · exact absurd h (by decide)
  · exact absurd h (by unfold Clause.isRep; decide)
  · exact absurd h (by unfold Clause.isGrd; decide)
  · exact h (by decide)
  · exact absurd h (by decide)

/-- All threads of the team wait at a REWARP. -/
def regrouping : State :=
  onGang words fun g => { g with paths := [], threads := g.threads.map fun th => { th with blocked := .rewarp 5#16 8 0x10004#64 1 0x10000#64 1#32 } }

theorem test_meets_Regroups : ∃ t, regrouping.team? 2 = some t ∧ regrouping.regroupDue t = true ∧ ∀ g ∈ t.gangs, g.threads.length ≤ 32 :=
  ⟨(words.team? 2).map (fun t => { t with gangs := [theGang regrouping] }) |>.getD (probeTeam 0 0 0 0), by decide⟩

/-- Tables of context 0 that map its first 64 GiB to the same physical addresses. -/
def paged (s : State) : State :=
  { s with contexts := s.contexts.map fun c => { c with table := 0x800000 }
           mem := (s.mem.writeNat 0x800000 8 0x802001).writeNat 0x802000 8 0x103F }

/-- A record at 0x8000 whose root asks for one gang, with partition caps or without, at the head of queue 0. -/
def launching (caps : Nat) : State :=
  let s := paged words
  { s with mem := s.mem.writeNat 0x8000 256 (0x10000 + 2 ^ 68 + 2 ^ 128 + caps * 2 ^ 1152)
           queues := [{ Queue.blank 0 with enabled := true, entries := 16, ringBase := 0x7000, items := [.record 0x8000#64] }] }

theorem test_meets_Dispatches : ∀ caps, (caps = 0x050505 ∨ caps = 0) → ∃ q, let s := launching caps
    let bs := s.mem.readBytes 0x8000 256
    let l := launchOfRecord s.nextUid 0x8000#64 q.ctx q.id (natOfBytes bs) none 0
    s.nextQueue = some q ∧ q.items.head? = some (.record 0x8000#64) ∧ s.unitRead q.ctx 0x8000#64 256 = (s, .bytes bs) ∧ l.traced = false
    ∧ (∀ x ∈ s.launches, x.state = .queued ∨ x.state = .running)
    ∧ (if caps = 0 then (s.dispatchFault l (natOfBytes bs)).isSome else s.dispatchFault l (natOfBytes bs) = none) := by
  rintro caps (rfl | rfl)
  · exact ⟨(launching 0x050505).queues.headD (Queue.blank 0), by decide +kernel⟩
  · exact ⟨(launching 0).queues.headD (Queue.blank 0), by decide +kernel⟩

/-- A second root task waits, which asks for one gang. -/
def waitingTask : Task := { rootTask (launchOfRecord 0 0x8000#64 0 0 0 none 0) 40 1 0 with desc := BitVec.ofNat 512 (0x10000 + 2 ^ 68 + 2 ^ 128) }
def admitting : State :=
  let s := onLaunch words fun la => { la with partition := 0x202020#64 }
  { s with tasks := s.tasks ++ [waitingTask] }

theorem placeBlock_some {s : State} {c : Context} {task n : Nat} (h : ((s.arenaStarts c).find? fun a => s.arenaFree c a n).isSome = true) :
    ∃ b, s.placeBlock c task n = some b := by
  unfold State.placeBlock
  dsimp only
  split
  · exact ⟨_, rfl⟩
  · exact Option.isSome_iff_exists.mp h

theorem test_meets_Admissions :
    (∃ l core block, admitting.task? waitingTask.uid = some waitingTask ∧ admitting.launch? waitingTask.launch = some l
      ∧ waitingTask.state = .waiting ∧ l.state = .running ∧ l.coop = false ∧ admitting.restoreFirst l.ctx = false
      ∧ admitting.admittedBefore l waitingTask = false ∧ admitting.placeTask waitingTask = some (l, core, block))
    ∧ ∃ t, (onTeam words fun t => { t with state := .zeroing }).team? 2 = some t ∧ t.state = .zeroing := by
  constructor
  · obtain ⟨l, hl⟩ := Option.isSome_iff_exists.mp (show (admitting.launch? waitingTask.launch).isSome = true by decide)
    have el : l = (admitting.launches.headD (launchOfRecord 0 0#64 0 0 0 none 0)) := by
      have : admitting.launch? waitingTask.launch = some (admitting.launches.headD (launchOfRecord 0 0#64 0 0 0 none 0)) := rfl
      rw [hl] at this; injection this
    let c := admitting.contexts.headD { id := 0, table := 0, privBase := 0, privSize := 0, saveBase := 0, saveSize := 0, gangQuota := 0, poolQuota := 0, held := false }
    have hc : admitting.context? 0 = some c := rfl
    obtain ⟨b, hb⟩ := placeBlock_some (s := admitting) (c := c) (task := 40) (n := 8192) (by decide)
    refine ⟨l, 1, b, by decide, hl, by decide, by rw [el]; decide, by rw [el]; decide, by rw [el]; decide, by rw [el]; decide, ?_⟩
    have hx : l.ctx = 0 := by rw [el]; decide
    have hp : admitting.placeTeam l c waitingTask (Desc.ask waitingTask.desc) = some 1 := by rw [el]; decide +kernel
    have hn : Desc.privBytes waitingTask.desc = 8192 := by decide
    have hu : waitingTask.uid = 40 := rfl
    simp [State.placeTask, hl, hx, hc, hp, hn, hu, hb]
  · exact ⟨_, rfl, rfl⟩

/-- The team is exiting, or killed, and nothing is under way. -/
def ending (state : TeamState) (kill : Option Kill) : State := onTeam words fun t => { t with state, kill }

theorem test_meets_TaskEnds : ∃ t k l, let s := ending .exiting none
    s.team? 2 = some t ∧ t.uid = 2 ∧ s.task? t.task = some k ∧ s.launch? k.launch = some l ∧ t.state = .exiting ∧ s.teamIdle t = true ∧ t.audit = none
    ∧ k.audit = none ∧ k.counted = false ∧ k.pooled = false ∧ s.traces = [] :=
  ⟨(ending .exiting none).teams.headD (probeTeam 0 0 0 0), someTask words 1, words.launches.headD (launchOfRecord 0 0#64 0 0 0 none 0), by decide⟩

/-- A kill by TRAP of lane 0. -/
def aKill : Kill := { cause := 0x17, firstCause := 0, info := 1#64, addr := 0#64, pc := 0x10004#64, lanes := 1#32, kind := 0, slot := 0, silent := false }
def dying (control : W64) : State :=
  let s := onLaunch (ending .killed (some aKill)) fun la => { la with control }
  { s with mc := { s.mc with configured := true, base := 0x6000, entries := 64, vector := 64 } }

theorem test_meets_Kills : ∀ control, (control = 0#64 ∨ control = 16#64) → ∃ t k l, let s := dying control
    s.team? 2 = some t ∧ t.uid = 2 ∧ s.task? t.task = some k ∧ s.launch? k.launch = some l ∧ t.launch = k.launch ∧ t.kill = some aKill
    ∧ t.state = .killed ∧ s.teamIdle t = true ∧ aKill.silent = false ∧ l.state = .running ∧ k.pooled = false ∧ s.traces = [] ∧ s.audits = []
    ∧ (∀ e ∈ s.claims, e.maker ≠ some k.uid) ∧ s.mc.hasRoom = true ∧ s.mem.wf = true ∧ l.recordWritten = false := by
  rintro c (rfl | rfl)
  · exact ⟨(dying 0#64).teams.headD (probeTeam 0 0 0 0), someTask words 1, (dying 0#64).launches.headD (launchOfRecord 0 0#64 0 0 0 none 0), by decide⟩
  · exact ⟨(dying 16#64).teams.headD (probeTeam 0 0 0 0), someTask words 1, (dying 16#64).launches.headD (launchOfRecord 0 0#64 0 0 0 none 0), by decide⟩

/-- A trace that propagates; task 41, a child of task 1, is STALE, and its descriptor at 0x1000 is as its node says or not. -/
def reckoning (same : Bool) : State :=
  let d := descOf (bytesOfNat 64 (0x10000 + 2 ^ 68 + 2 ^ 128))
  let s := paged words
  let n := { node 41 (some 1) .stale (if same then digestDesc d else 0#64) with position := [[0, 0], [1, 0]] }
  { s with mem := s.mem.writeNat 0x1000 64 (0x10000 + 2 ^ 68 + 2 ^ 128)
           tasks := s.tasks ++ [{ waitingTask with uid := 41, parent := some 1, launch := 9, state := .ended }]
           launches := s.launches ++ [launchOfRecord 9 0x8100#64 0 0 0 none 0]
           traces := [trace .propagating [node 1 none .live 0#64, n]] }

theorem test_meets_Reckons : ∀ same, ∃ n k, let s := reckoning same
    let t := trace .propagating [node 1 none .live 0#64, n]
    let bs := s.mem.readBytes 0x1000 64
    s.traces = [t] ∧ t.acts = true ∧ t.nextStale = some n ∧ t.state ≠ .ready ∧ s.reckonerLoad t < t.window ∧ s.storePoisoned t n = false
    ∧ s.unitRead t.ctx n.descAddr 64 = (s, .bytes bs) ∧ s.task? n.task = some k ∧ n.parent = some 1
    ∧ (if same then digestDesc (descOf bs) = n.descDigest else digestDesc (descOf bs) ≠ n.descDigest) := by
  rintro (_ | _)
  · exact ⟨(((reckoning false).traces.headD (trace .ready [])).nodes.getD 1 (node 0 none .live 0#64)), someTask (reckoning false) 41, by decide +kernel⟩
  · exact ⟨(((reckoning true).traces.headD (trace .ready [])).nodes.getD 1 (node 0 none .live 0#64)), someTask (reckoning true) 41, by decide +kernel⟩

theorem test_meets_LeastChosen_reckoner : ∃ n, (trace .propagating [node 1 none .live 0#64, node 41 none .stale 0#64]).nextStale = some n :=
  ⟨node 41 none .stale 0#64, by decide⟩

/-- Lane 0's atomic add at 0x1000 waits for its grant. -/
def granted : State :=
  onPath (deterministic (alone words)) fun p => { p with grants := [(0, .atomic 0 8 0x1000#64 0x1000 1#64 (.x 4))], held := true }

theorem test_meets_Grants : ∃ i, let s := { granted with cur := none }
    s.detLaunch 0 = true ∧ s.nextGrant 0 = some (2, 0, .word 2) ∧ s.issueAt { team := 2, gang := 0, path := 2 } = some i
    ∧ i.path.grants = [(0, .atomic 0 8 0x1000#64 0x1000 1#64 (.x 4))] ∧ isRemote 0x1000 = false ∧ s.poisonedAt 0x1000 8 = false ∧ s.mem.wf = true
    ∧ (s.parkedGangs 0).Nodup ∧ s.calm 2 := by
  obtain ⟨i, hi⟩ := Option.isSome_iff_exists.mp (show (granted.issue).isSome = true by decide)
  have hp : (granted.issue.map fun i => i.path.grants) = some [(0, .atomic 0 8 0x1000#64 0x1000 1#64 (.x 4))] := by decide
  rw [hi] at hp
  exact ⟨i, by decide, by decide, hi, by simpa using hp, by decide, by decide, by decide, by decide, calm_of (by decide)⟩

/-- A team of one unit of registers that drains, held at a boundary of a REP; its save area lies in the system window. -/
def draining : State :=
  let s := onPath (onTeam (paged words) fun t => { t with state := .draining, regs8 := 1, scratchUnits := 0, accTiles := 0, barriers := [] }) fun p =>
    { p with rep := some { count := 4, dStep := 0, aStep := 0, bStep := 0, done := 1 } }
  { s with mem := s.mem.writeNat 0x802000 8 0x800000000103F, apertures := [{ entry := 0, kind := 1, target := 5 }] }

theorem test_meets_Preemptions_saves : ∃ t, draining.team? 2 = some t ∧ t.state = .draining ∧ draining.drainedTeam t = true
    ∧ (∃ g ∈ t.gangs, g.allExited = false) ∧ draining.areaZeroing t = false ∧ (draining.writeArea t.ctx t.saveArea ((t.saveBytes + 63) / 64)).2 = none :=
  ⟨draining.teams.headD (probeTeam 0 0 0 0), by decide +kernel⟩

theorem test_meets_Preemptions_ends : ∃ t, let s := onThreads draining fun th => { th with exited := true }
    s.team? 2 = some t ∧ t.state = .draining ∧ s.drainedTeam t = true ∧ ∀ g ∈ t.gangs, g.allExited = true :=
  ⟨(onThreads draining fun th => { th with exited := true }).teams.headD (probeTeam 0 0 0 0), by decide +kernel⟩

/-- The same team, SAVED; its launch may run on core 0. -/
def savedTeam : State :=
  onTeam (onLaunch draining fun la => { la with partition := 0x202020#64 }) fun t => { t with state := .saved }

theorem test_meets_Preemptions_restores : ∃ t, savedTeam.team? t.uid = some t ∧ savedTeam.placeSaved t = some 0 ∧ savedTeam.restorable t = true
    ∧ savedTeam.restoredBefore t = false ∧ savedTeam.areaPoison t = none :=
  ⟨savedTeam.teams.headD (probeTeam 0 0 0 0), by decide +kernel⟩

/-! ### Audits, walks, commands -/

/-- An audit of the waiting task, on core 1; its replay has come to core 2 or not, and has diverged or not. -/
def anAudit (digest : W64) (replay : Option (Nat × Nat)) (mismatch : Bool) : Audit :=
  { uid := 80, task := 40, launch := 0, core := 1, block := 0x40000#64, digest, weight := 5, pooled := false, replay, replayDigest := none
    third := false, log := [.load 0 0 3 0x1008#64 7#64], ran := waitingTask, left := [], mismatch, lost := false }
def auditing (a : Audit) : State :=
  { admitting with audits := [a], mc := { admitting.mc with configured := true, base := 0x6000, entries := 64, vector := 64 } }

theorem placeReplay_of {s : State} {a : Audit} {l : Launch} {c : Context} {core b : Nat} (hl : s.launch? a.launch = some l)
    (hc : s.context? l.ctx = some c) (hp : s.roomiest (s.replayCores l c a.core (Desc.ask a.ran.desc)) = some core)
    (hb : s.placeBlock c a.uid (Desc.privBytes a.ran.desc) = some b) : s.placeReplay a = some (l, core, b) := by
  simp [State.placeReplay, hl, hc, hp, hb]

theorem test_meets_Audits_replay : ∃ l core block, let a := anAudit 0#64 none false
    let s := auditing a
    s.audits.find? (fun x => x.uid == 80) = some a ∧ a.replay = none ∧ s.placeReplay a = some (l, core, block) ∧ s.task? a.task ≠ none := by
  let a := anAudit 0#64 none false
  let s := auditing a
  let l := s.launches.headD (launchOfRecord 0 0#64 0 0 0 none 0)
  let c := s.contexts.headD { id := 0, table := 0, privBase := 0, privSize := 0, saveBase := 0, saveSize := 0, gangQuota := 0, poolQuota := 0, held := false }
  have hl : s.launch? 0 = some l := by decide
  have hc : s.context? l.ctx = some c := by decide
  have hp : s.roomiest (s.replayCores l c 1 (Desc.ask waitingTask.desc)) = some 0 ∨ s.roomiest (s.replayCores l c 1 (Desc.ask waitingTask.desc)) = some 2 := by
    decide +kernel
  obtain ⟨b, hb⟩ := placeBlock_some (s := s) (c := c) (task := 80) (n := Desc.privBytes waitingTask.desc) (by decide)
  obtain hp | hp := hp
  · exact ⟨l, 0, b, by decide, rfl, placeReplay_of (a := a) hl hc hp hb, by decide⟩
  · exact ⟨l, 2, b, by decide, rfl, placeReplay_of (a := a) hl hc hp hb, by decide⟩

/-- The replay's team, on core 2, all of whose threads have exited. -/
def aReplay : Team :=
  let t := (admitting.team? 2).getD (probeTeam 0 0 0 0)
  { t with uid := 3, core := 2, task := 80, state := .replay
           gangs := t.gangs.map fun g => { g with paths := [], threads := g.threads.map fun th => { th with exited := true } } }
def replayed (a : Audit) : State := { auditing a with teams := admitting.teams ++ [aReplay] }

/-- With the first run's digest, with another, and diverged. -/
theorem test_meets_Audits_ends : ∀ x, (x = (Task.digest waitingTask, false) ∨ x = (Task.digest waitingTask + 1#64, false) ∨ x = (Task.digest waitingTask, true)) →
    ∃ l, let a := anAudit x.1 (some (3, 2)) x.2
    let s := replayed a
    s.audits.find? (fun y => y.uid == a.uid) = some a ∧ a.replay = some (aReplay.uid, 2) ∧ a.replayDigest = none
    ∧ s.team? aReplay.uid = some aReplay ∧ a.lost = false ∧ aReplay.gangs.all Gang.allExited = true ∧ s.teamIdle aReplay = true
    ∧ s.launch? a.launch = some l ∧ s.task? a.task = some waitingTask ∧ waitingTask.launch = a.launch ∧ s.traces = [] ∧ a.pooled = false
    ∧ s.mc.hasRoom = true ∧ (a.ran.digest = a.digest ↔ x.1 = Task.digest waitingTask) := by
  rintro x (rfl | rfl | rfl) <;> exact ⟨admitting.launches.headD (launchOfRecord 0 0#64 0 0 0 none 0), by decide⟩

/-- Lane 0 of a replay accesses 0x1008; the log holds its next load, at an address. -/
def replaying (i : Instr) (at' : W64) : State :=
  { onTeam (alone (issuing i fun l => [BitVec.ofNat 64 (0x1000 + 16 * l), 0x1122#64])) (fun t => { t with state := .replay }) with
    audits := [{ anAudit 0#64 (some (2, 0)) false with left := [.load 0 0 3 at' 7#64, .load 0 0 5 0x1010#64 8#64] }] }

theorem test_meets_ReplayedAccesses :
    (∀ at', (at' = 0x1008#64 ∨ at' = 0x1010#64) → ∃ i x, (replaying (.ldd 4#7 2#7 8#11) at').issue = some i
      ∧ (replaying (.ldd 4#7 2#7 8#11) at').calm i.cursor.team ∧ i.replays = true
      ∧ (replaying (.ldd 4#7 2#7 8#11) at').auditBy i.cursor.team = some x ∧ x.left = [.load 0 0 3 at' 7#64, .load 0 0 5 0x1010#64 8#64]
      ∧ i.path.lanes = 1#32 ∧ i.active = [0] ∧ i.reads [2#7] ∧ i.writes 4#7 ∧ decode i.word = .ok (.ldd 4#7 2#7 8#11) ∧ i.cursor.gang = 0
      ∧ (i.val 0 2#7 + (8#11).signExtend 64 = at' ↔ at' = 0x1008#64))
    ∧ ∃ i, (replaying (.std 3#7 2#7 8#11) 0x1008#64).issue = some i ∧ i.replays = true ∧ i.reads [3#7]
      ∧ decode i.word = .ok (.std 3#7 2#7 8#11) := by
  refine ⟨?_, at_issue (by decide) (by dsimp only [Issue.writes, Issue.reads, Lane.writable, Lane.readable, Issue.free, Issue.lastWord, Issue.unheld, Thread.hasHandler, Core.clean]; decide)⟩
  rintro a (rfl | rfl) <;>
    exact ⟨_, _, (Option.some_get (show _ = true by decide)).symm, calm_of (by decide), by decide, (Option.some_get (show _ = true by decide)).symm,
      by decide, by decide, by decide, by dsimp only [Issue.writes, Issue.reads, Lane.writable, Lane.readable, Issue.free, Issue.lastWord, Issue.unheld, Thread.hasHandler, Core.clean]; decide, by dsimp only [Issue.writes, Issue.reads, Lane.writable, Lane.readable, Issue.free, Issue.lastWord, Issue.unheld, Thread.hasHandler, Core.clean]; decide, by decide, by decide, by decide⟩

/-- A walk for lane 0, of address 0x1000, and tables that end at an entry; the fault queue is set up. -/
def aWalk : Walk :=
  { uid := 70, ctx := 0, core := 0, va := 0x1000#64, access := 0, team := 2, gang := 0, path := some 2, command := none, quiet := false
    lanes := [(0, 0x1000#64)], parked := false }
def walking (e : Nat) : State :=
  let s := paged words
  { s with mem := s.mem.writeNat 0x802000 8 e, walks := [aWalk]
           fq := { s.fq with configured := true, base := 0x5000, entries := 64, vector := 70 } }

theorem test_meets_Walks_leaf : ∀ e, (e = 0x3F ∨ e = 0x113F ∨ e = 0x93F ∨ e = 0x100000013F) →
    (walking e).walks.find? (fun x => x.uid == aWalk.uid) = some aWalk ∧ (walking e).mem.wf = true
    ∧ (walking e).walkTables aWalk.ctx aWalk.va = .leaf 0x802000 1 (BitVec.ofNat 64 e) := by
  rintro e (rfl | rfl | rfl | rfl) <;> decide +kernel

theorem test_meets_Walks_cases :
    pteZoa 0x3F#64 = false ∧ (pteZoa 0x113F#64 = true ∧ pteOwn 0x113F#64 = 2)
    ∧ (pteZoa 0x93F#64 = true ∧ pteOwn 0x93F#64 = 1 ∧ aWalk.parked = false)
    ∧ pteZoa 0x100000013F#64 = true ∧ pteOwn 0x100000013F#64 = 0 ∧ pteAddr 0x100000013F#64 < deviceBytes
    ∧ 0x802000 + 8 ≤ pteAddr 0x100000013F#64 := by decide

/-- 63 walks of the die stand before it, or 64. -/
theorem test_meets_Walks_inHand : ∀ n, (n = 63 ∨ n = 64) → let s := { walking 0x3F with walks := (List.range n).map (fun k => { aWalk with uid := 100 + k }) ++ [aWalk] }
    s.walks.find? (fun x => x.uid == aWalk.uid) = some aWalk ∧ aWalk.parked = false
    ∧ ((s.walks.takeWhile fun x => x.uid != aWalk.uid).filter fun x => x.core / 72 == aWalk.core / 72 && !x.parked).length = n := by
  rintro n (rfl | rfl) <;> decide

theorem test_meets_Walks_fault : ∃ level reason g, (walking 0).walkTables 0 0x1000#64 = .fault level reason ∧ (walking 0).gang? 2 0 = some g
    ∧ (walking 0).faultRoom 0 = true ∧ (aWalk.lanes.filter fun l => g.stillWaits aWalk l.1) ≠ [] ∧ (walking 0).faultSpace = true
    ∧ (walking 0).unposted = none ∧ (walking 0).walks.find? (fun x => x.uid == aWalk.uid) = some aWalk ∧ (walking 0).mem.wf = true :=
  ⟨1, 1, theGang words, by decide +kernel⟩

/-- The same walk for a prefetch, and for the engine command of `commanding`. -/
def quietly (w : Walk) : State := { walking 0 with walks := [w] }
def commandWalks : State := onTeam (quietly { aWalk with command := some 70 }) fun t => { t with commands := [command false .running] }
theorem test_meets_Walks_quiet :
    (quietly { aWalk with quiet := true }).walkTables 0 0x1000#64 = .fault 1 1
    ∧ ((quietly { aWalk with quiet := true }).path? { team := 2, gang := 0, path := 2 }).isSome = true
    ∧ ∃ r, commandWalks.command? 70 = some r ∧ commandWalks.faultRoom r.team.core = true
        ∧ commandWalks.walkTables 0 0x1000#64 = .fault 1 1
        ∧ commandWalks.walks.find? (fun x => x.uid == 70) = some { aWalk with command := some 70 } :=
  ⟨by decide +kernel, by decide, _, (Option.some_get (show (commandWalks.command? 70).isSome = true by decide)).symm, by decide,
    by decide +kernel, by decide⟩

/-- A fault of lane 0, whose record has been written or not. -/
def aFault (posted : Bool) : PageFault :=
  { id := 5, ctx := 0, core := 0, va := 0x1000#64, access := 0, level := 1, reason := 0, team := 2, gang := 0, slot := 0, lanes := [(0, 0x1000#64)]
    pc := 0x10004#64, word := 1, header := 0x10000#64, command := none, posted }
/-- Lane 0 is parked on it. -/
def faulting (posted : Bool) : State :=
  let s := onGang words fun g => { g with paths := [], threads := g.threads.modify 0 fun th => { th with blocked := .fault 5 } }
  { s with faults := [aFault posted], fq := { s.fq with configured := true, base := 0x5000, entries := 64, vector := 70 } }

/-- An INVAL of all pages of context 0, the one command that waits, and a page range of it. -/
def anInval : Inval := { uid := 90, ctx := 0, base := 0, pages := 0, command := 91 }
def invalidating : State := { words with invals := [anInval], hostCommands := [{ uid := 91, status := none, waits := [] }] }

theorem test_meets_FaultsAndInvals :
    ((faulting false).unposted = some (aFault false) ∧ (faulting false).faultSpace = true ∧ (faulting false).mem.wf = true)
    ∧ invalidating.invals.find? (fun x => x.uid == anInval.uid) = some anInval ∧ invalidating.walks.any anInval.concerns = false
    ∧ invalidating.hostCommands = [{ uid := 91, status := none, waits := [] }] ∧ anInval.command = 91 := by decide

/-- The team of context 0 is resident; an idle queue 1 beside the busy queue 0. -/
theorem test_meets_ContextCommands :
    words.island.computeUp = true ∧ words.hostCommands = [] ∧ (∃ u ∈ words.teams, u.ctx = 0 ∧ u.state ≠ .saved)
    ∧ (¬∃ u ∈ words.teams, u.ctx = 1 ∧ u.state ≠ .saved) ∧ (1 < 16 ∧ 0x2000 % 8192 = 0 ∧ 0 < 64 ∧ 64 ≤ 64 ∧ 0 < 96 ∧ 96 ≤ 96)
    ∧ ¬((words.queueAt 0).items = [] ∧ (words.queueAt 0).running = none) ∧ ((words.queueAt 63).items = [] ∧ (words.queueAt 63).running = none)
    ∧ (63 < 64 ∧ 15 < 16 ∧ 3 < 4 ∧ 4 ≤ 16 ∧ 2 ^ 16 = 65536 ∧ 0x1000 % 4096 = 0 ∧ 0x1000 + 8 * 2 ^ 16 ≤ 2 ^ 39 ∧ 0x300 % 256 = 0)
    ∧ invalidating.hostCommands = [] ++ invalidating.hostCommands ∧ (invalidating.hostCommands.map HostCommand.status) = [none] := by decide

theorem test_meets_DeviceCommands :
    words.island.computeUp = true
    ∧ (∀ ts, (ts = TraceState.recording ∨ ts = .settling ∨ ts = .propagating) → (tracing words (trace ts [])).trace? 0 = some (trace ts []))
    ∧ ((tracing words (trace .ready [])).props = [] ∧ ∀ x ∈ (tracing words (trace .ready [])).traces, x.ctx = 0 → x.state = .ready)
    ∧ (287 < 288 ∧ 16 ≤ 255 ∧ (2 ^ 28) % 4 = 0) ∧ words.launchedOnce = true ∧ State.reset.launchedOnce = false
    ∧ (6 ≤ 16 ∧ 2 ^ 16 = 65536 ∧ 0x1000 % 4096 = 0 ∧ 0x1000 + 2 ^ 16 * 64 ≤ 2 ^ 39 ∧ 64 ≤ 127) ∧ (4095 < 4096 ∧ 2 < 3 ∧ 16383 < 16384) := by
  refine ⟨by decide, ?_, by decide⟩
  rintro ts (rfl | rfl | rfl) <;> rfl

theorem test_meets_DeviceCommands_calm : ∀ u g l th, (tracing words (trace .ready [])).thread? u g l = some th → th.blocked = .none := by
  intro u g l th e
  have h : ∀ t ∈ (tracing words (trace .ready [])).teams, ∀ g ∈ t.gangs, ∀ th ∈ g.threads, th.blocked = .none := by decide
  unfold State.thread? State.gang? State.team? at e
  cases a : (tracing words (trace .ready [])).teams.find? fun t => t.uid == u with
  | none => simp [a] at e
  | some t =>
    cases b : t.gangs[g]? with
    | none => simp [a, b] at e
    | some x =>
      simp only [a, b, Option.bind_some] at e
      exact h t (List.mem_of_find?_eq_some a) x (List.mem_of_getElem? b) th (List.mem_of_getElem? e)

theorem test_meets_TeamCommands_resolve : (faulting true).island.computeUp = true ∧ (faulting true).fault? 5 = some (aFault true)
    ∧ (aFault true).command = none ∧ (∃ u, (faulting true).team? 2 = some u ∧ u.state ≠ .replay) ∧ ((aFault true).lanes.map Prod.fst).Nodup
    ∧ (∃ th, (faulting true).thread? 2 0 0 = some th ∧ th.blocked = .fault 5 ∧ th.hasHandler) ∧ (faulting true).fault? 6 = none := by
  refine ⟨by decide, by decide, by decide, ⟨(faulting true).teams.headD (probeTeam 0 0 0 0), by decide⟩, by decide, ?_, by decide⟩
  exact ⟨((faulting true).thread? 2 0 0).getD Thread.blank, by dsimp only [Issue.writes, Issue.reads, Lane.writable, Lane.readable, Issue.free, Issue.lastWord, Issue.unheld, Thread.hasHandler, Core.clean]; decide⟩

theorem test_meets_TeamCommands_preempt : ∃ u c a, words.namedTeams 0 0xFFFF 0xFF = [u] ∧ words.team? u.uid = some u ∧ u.state = .running
    ∧ u.drainWanted = false ∧ words.context? u.ctx = some c ∧ words.placeSave c u = some a :=
  ⟨words.teams.headD (probeTeam 0 0 0 0),
    words.contexts.headD { id := 0, table := 0, privBase := 0, privSize := 0, saveBase := 0, saveSize := 0, gangQuota := 0, poolQuota := 0, held := false },
    0x40000, by decide +kernel⟩

/-- Queue 0 takes launches, or holds as many as its ring, or is not enabled. -/
def ringing (enabled : Bool) (items : List QueueItem) : State :=
  { paged words with queues := [{ Queue.blank 0 with enabled, entries := 16, ringBase := 0x7000, items }] }

/-- Sector n is poisoned. -/
def poisoning (n : Nat) : State := { words with l2 := [{ sector := n, mask := 0#64, poisoned := true, cover := 0#64 }] }

/-- Tables whose leaf for the EDWIN's address is writable, or derived. -/
theorem test_meets_HostAccesses :
    (words.island.computeUp = true ∧ words.mem.wf = true)
    ∧ (∃ q, (ringing true []).queue? 0 = some q ∧ q.id = 0 ∧ q.enabled = true
        ∧ q.items.length + (if q.running = none then 0 else 1) < q.entries ∧ 0x300 % 256 = 0)
    ∧ (∃ q, (ringing true (List.replicate 16 (.record 0#64))).queue? 0 = some q
        ∧ q.entries ≤ q.items.length + (if q.running = none then 0 else 1))
    ∧ (∃ q, (ringing false []).queue? 0 = some q ∧ q.enabled = false)
    ∧ ((0x1008#64).toNat % 8 = 0 ∧ canonical 0x1008#64 = true ∧ (paged words).edCtx = 0)
    ∧ (pteZoa 0x3F#64 = false ∧ pteTracked 0x3F#64 = false ∧ pteCtx 0x3F#64 = 0 ∧ pteW 0x3F#64 = true ∧ leafPhys 0x3F#64 0x1008#64 < deviceBytes)
    ∧ (pteDerived 0xFF#64 = true ∧ pteZoa 0xFF#64 = false)
    ∧ ((4#512).extractLsb' 0 8 = 0x04#8 ∧ (5#512).extractLsb' 0 8 = 0x05#8 ∧ (13#512).extractLsb' 0 8 = 0x0D#8)
    ∧ words.poisonedAt 0x1000 8 = false ∧ (poisoning 64).poisonedAt 0x1000 8 = true :=
  ⟨by decide, ⟨(ringing true []).queues.headD (Queue.blank 0), by decide⟩,
    ⟨(ringing true (List.replicate 16 (.record 0#64))).queues.headD (Queue.blank 0), by decide⟩,
    ⟨(ringing false []).queues.headD (Queue.blank 0), by decide⟩, by decide, by decide, by decide, by decide, by decide, by decide⟩

theorem test_meets_HostAccesses_tables : (walking 0x3F).walkTables 0 0x1008#64 = .leaf 0x802000 1 0x3F#64
    ∧ (walking 0xFF).walkTables 0 0x1008#64 = .leaf 0x802000 1 0xFF#64
    ∧ (walking 0x93F).walkTables 0 0x1008#64 = .leaf 0x802000 1 0x93F#64 := by decide +kernel
theorem test_meets_HostAccesses_zeroing : pteZoa 0x93F#64 = true ∧ pteOwn 0x93F#64 = 1 ∧ pteCtx 0x93F#64 = 0 ∧ pteW 0x93F#64 = true := by decide

/-! ### Packets and the island -/

/-- Destinations 5 and 9 leave by port 3; port 2 is up too. -/
def routing (state : IslandState) : State :=
  let i := (paged words).island
  { paged words with
    island := { i with state, routes := [(5, 0x8003#16), (9, 0x8003#16)], ports := (i.ports.set 2 { Port.reset with up := true }).set 3 { Port.reset with up := true } } }

/-- A packet from device 9. -/
def packetTo (dst kind : Nat) (addr : W64) (payload : List Byte) : Packet :=
  { dst, src := 9, vc := 0, flits := payload.length / 64, kind, tag := 7, addr, payload }
/-- One flit of zeros. -/
def flit : List Byte := bytesOfNat 64 0

theorem no_way {i : Island} {d : Nat} (h : (i.route d).getLsbD 15 = false) : ∀ m, ¬Says.exits i d m := fun m e => by
  obtain ⟨a, _⟩ := e
  exact absurd (h.symm.trans a) (by decide)

theorem test_meets_Forwarding : ∀ st, (st = IslandState.forward ∨ st = .full ∨ st = .drain) → 2 < 12 ∧ ((routing st).island.port 2).up = true
    ∧ (∀ dst < 16, ∀ kind < 8, (packetTo dst kind 0#64 flit).legal = true ∧ (dst = 5 ∨ dst = 6 → dst ≠ (routing st).island.deviceId.toNat))
    ∧ Says.exits (routing st).island 5 3 ∧ Says.exits (routing st).island 9 3 ∧ (∀ m, ¬Says.exits (routing st).island 6 m)
    ∧ 9 ≠ (routing st).island.deviceId.toNat := by
  rintro st (rfl | rfl | rfl) <;>
    exact ⟨by decide, by decide, by decide, by unfold Says.exits; decide, by unfold Says.exits; decide, no_way (by decide), by decide⟩

/-- A write of 8 bytes, an atomic of 4, a task packet for queue 0. -/
theorem test_meets_Requests : (routing .full).mem.wf = true ∧ (packetTo 0 1 0x1000#64 (bytesOfNat 64 0x108)).legal = true
    ∧ 0 = (routing .full).island.deviceId.toNat ∧ 0 < (packetTo 0 1 0x1000#64 (bytesOfNat 64 0x108)).data.length
    ∧ (packetTo 0 2 0x1000#64 (bytesOfNat 64 0x4)).code < 16 ∧ (packetTo 0 2 0x1000#64 (bytesOfNat 64 0x4)).size = 4
    ∧ (routing .full).poisonedAt 0x1000 4 = false ∧ (packetTo 0 0 0x1000#64 (bytesOfNat 64 0)).size = 256
    ∧ Says.exits (routing .full).island 9 3 ∧ Says.exits (routing .forward).island 9 3 ∧ Says.exits (routing .drain).island 9 3 :=
  ⟨by decide, by decide, by decide, by decide, by decide, by decide, by decide, by decide, by unfold Says.exits; decide,
    by unfold Says.exits; decide, by unfold Says.exits; decide⟩

/-- The same island with queues as given. -/
def receiving (enabled : Bool) (generation : Nat) (items : List QueueItem) : State :=
  { routing .full with queues := [{ Queue.blank 0 with enabled, entries := 16, ringBase := 0x7000, generation, items }] }

theorem test_meets_Requests_tasks :
    (let p := packetTo 0 3 0#64 (bytesOfNat 128 0);
      p.legal = true ∧ (receiving true 0 []).duplicate p = false ∧ (p.addr.extractLsb' 14 10).toNat = 0 ∧ (p.addr.extractLsb' 24 24).toNat = 0)
    ∧ (let q := (receiving true 0 []).queueAt 0;
      q.enabled = true ∧ q.generation = 0 ∧ q.items.length + (if q.running = none then 0 else 1) < q.entries ∧ q.ctx = 0 ∧ q.template = 0#64)
    ∧ 64 ≤ ((0x3FF#64 <<< 14).extractLsb' 14 10).toNat ∧ ((receiving false 0 []).queueAt 0).enabled = false
    ∧ ((receiving true 1 []).queueAt 0).generation = 1
    ∧ ((receiving true 0 (List.replicate 16 (.record 0#64))).queueAt 0).items.length = ((receiving true 0 []).queueAt 0).entries := by decide

theorem test_meets_Requests_template : (receiving true 0 []).walkTables 0 0#64 = .leaf 0x802000 1 0x103F#64 := by decide +kernel

/-- Lane 0's load of the system window waits for the answer of device 9. -/
def asked : Remote :=
  { pa := 2 ^ 51, packet := { packetTo 9 0 0#64 flit with src := 0 }, op := some 60, store := none, commit := none, fill := none, late := [], watcher := none, command := none
    reader := none, fetcher := none, unit := false }
def askedLoad : LoadReq :=
  { dest := .x 4, va := 0x1000#64, pa := 2 ^ 51, size := 8, signExtend := false, allocate := true, bypass := false, bound := none }
def awaiting : State := { pending (.load askedLoad) with remotes := [asked] }

/-- The launch has sent a task packet with ticket 3 to device 9. -/
def aTicket : Ticket := { number := 3, weight := 4, ordinal := 0#64, packet := { packetTo 9 3 0#64 flit with src := 0 }, accepted := false, pooled := false }
def ticketed : State :=
  { onLaunch words fun la => { la with unsettled := [aTicket] } with
    mc := { words.mc with configured := true, base := 0x6000, entries := 64, vector := 64 } }

theorem test_meets_Answers :
    (let p := packetTo 0 4 0#64 (bytesOfNat 128 0);
      p.legal = true ∧ p.dst = awaiting.island.deviceId.toNat ∧ awaiting.island.state = .full ∧ p.poisoned = false
      ∧ awaiting.remoteOf p.tag p.src = some asked ∧ awaiting.ownBefore (pendingOp (.load askedLoad)) asked = [] ∧ awaiting.op? 60 = some (pendingOp (.load askedLoad)))
    ∧ (∃ la, ticketed.launch? 0 = some la ∧ la.uid = 0 ∧ ticketed.traces = [] ∧ ticketed.mc.hasRoom = true
      ∧ (let p := packetTo 0 5 0#64 (bytesOfNat 64 0x3010300);
        p.legal = true ∧ p.num 1 1 = 3 ∧ p.num 2 1 % 2 = 1 ∧ ticketed.ticketOf p = some (la, aTicket))
      ∧ (let p := packetTo 0 6 0#64 (bytesOfNat 64 0x3000301);
        p.legal = true ∧ p.num 1 1 = 3 ∧ ticketed.ticketOf p = some (la, aTicket)))
    ∧ words.remoteOf 7 9 = none ∧ words.ticketOf (packetTo 0 5 0#64 flit) = none :=
  ⟨by decide, ⟨ticketed.launches.headD (launchOfRecord 0 0#64 0 0 0 none 0), by decide⟩, by decide, by decide⟩

/-- Port 3 in one of its states. -/
def porting (q : Port) : State := { words with island := { words.island with ports := words.island.ports.set 3 q } }

theorem test_meets_Links : ∀ q : Port, q.retry = [] → (porting q).island.ports.length = 12 ∧ (porting q).island.port 3 = q
    ∧ (porting q).island.state = .full ∧ (porting q).island.managementUp = true := fun _ _ => ⟨rfl, rfl, rfl, rfl⟩

theorem test_meets_Links_ports :
    (∃ q : Port, q.retry = [] ∧ q.up = true ∧ q.failedReplays < 7) ∧ (∃ q : Port, q.retry = [] ∧ q.up = true ∧ 7 ≤ q.failedReplays ∧ q.failedRetrains < 3)
    ∧ (∃ q : Port, q.retry = [] ∧ q.up = true ∧ 7 ≤ q.failedReplays ∧ 3 ≤ q.failedRetrains) ∧ (∃ q : Port, q.retry = [] ∧ q.up = false ∧ q.retired = false)
    ∧ ∃ q : Port, q.retry = [] ∧ q.retired = true :=
  ⟨⟨{ Port.reset with up := true }, by decide⟩, ⟨{ Port.reset with up := true, failedReplays := 7 }, by decide⟩,
    ⟨{ Port.reset with up := true, failedReplays := 7, failedRetrains := 3 }, by decide⟩, ⟨Port.reset, by decide⟩,
    ⟨{ Port.reset with retired := true }, by decide⟩⟩

/-- The island in a state, with the compute side up or not. -/
def powering (f : Island → Island) : State := { words with island := f words.island }

theorem test_meets_Power :
    State.reset.island.state = .off ∧ words.island.state ≠ .off ∧ words.island.forwarded = []
    ∧ ((powering fun i => { i with state := .drain }).island.state = .drain ∧ (powering fun i => { i with state := .drain }).island.forwarded = [])
    ∧ (let i := (powering fun i => { i with state := .forward, port12Up := false }).island;
      i.state = .forward ∧ i.held = false ∧ 3 ≤ i.step ∧ i.computeUp = true ∧ i.port12Up = false ∧ i.lost = [])
    ∧ (let s := powering fun i => { i with state := .boot, held := true };
      s.island.computeUp = true ∧ s.outPackets = [] ∧ s.island.state = .boot ∧ s.island.held = true) := by decide

/-- FIPS 180-4: the SHA-384 digest of "abc". -/
theorem test_sha384 : digestOf [0x61, 0x62, 0x63] =
    0xcb00753f45a35e8bb5a03d699ac65007272c32ab0eded1631a8b605a43ff5bed8086072ba1e7cc2358baeca134c825a7#384 := by decide +kernel

theorem test_meets_Boots :
    (∀ n, (powering fun i => { i with state := .boot, step := n, computeUp := false }).island.step = n)
    ∧ (let i := (powering fun i => { i with state := .boot, step := 2 }).island;
      i.state = .boot ∧ i.held = false ∧ i.recovery = none ∧ i.ports.length = 12 ∧ (∀ q ∈ i.ports, q.retired = false) ∧ ({ deviceId := 5#14, routes := [], loads := true } : IslandConfig).loads = true)
    ∧ (let i := (powering fun i => { i with state := .boot, step := 1, held := true }).island;
      i.state = .boot ∧ i.held = true ∧ i.step = 1 ∧ i.replaced = false)
    ∧ (let i := (powering fun i => { i with state := .forward, step := 5, computeUp := false }).island;
      i.state = .forward ∧ i.held = false ∧ i.computeUp = false ∧ i.bootHeld = false ∧ i.managementUp = true)
    ∧ (powering fun i => { i with bootHeld := true }).island.bootHeld = true :=
  ⟨fun _ => rfl, by decide, by decide, by decide, by decide⟩

/-- A core whose last window met a threshold, and whose count of this one began at nominal voltage. -/
theorem test_meets_StorageErrors : words.island.computeUp = true ∧ words.island.managementUp = true ∧ 287 < 288
    ∧ (∃ u, words.team? u.uid = some u ∧ u.kill = none ∧ u.core = 0 ∧ u.state ≠ .saved ∧ u.state ≠ .replay)
    ∧ (StorageSite.pool 0 none).present = true ∧ (StorageSite.pool 288 none).present = false
    ∧ 5 / 4 ∈ ({ words with syncLines := [1] } : State).syncLines
    ∧ (let c := ((onCore words fun c => { c with errors := [{ array := .pool, total := 16, nominal := true, lastWindow := 16 }] }).core 0)
      c.nominal .pool = true ∧ c.windowCount .pool 0 = 16 ∧ c.lastWindow .pool = 16 ∧ c.retired = false) :=
  ⟨by decide, by decide, by decide, ⟨words.teams.headD (probeTeam 0 0 0 0), by decide⟩, by decide⟩

/-! ### Encoding, steps, traps -/

theorem test_meets_DecodeEncode : encode (.cmp 1#1 3#3 7#7 112#7 127#7) = some 0x40000000#32 ∨ ∃ w, encode (.cmp 1#1 3#3 7#7 112#7 127#7) = some w := by
  right; exact ⟨_, rfl⟩
theorem test_meets_EncodeDecode : decode 0x28081007#32 = .ok (.addi 2#7 2#7 7#11) ∧ (∀ m : Nat, m = 0 ∨ m = 0x77 → m = 0 ∨ (0x6D ≤ m ∧ m ≤ 0x77)) := by
  exact ⟨by decide, by omega⟩

/-- The state of `ready` with a word of reserved major instead. -/
def unready : State := State.reset.withFetchWord 32 0

/-- The second repetition of MOV x4, x2, whose fields step by 1. -/
def stepping : State := onPath (longer words) fun p => { p with rep := some { count := 2, dStep := 1, aStep := 1, bStep := 0, done := 1 } }

theorem test_meets_StepRunsWord :
    (∃ c p, let s := ready (.mov 4#7 2#7) fun _ => []
      s.agenda = some c ∧ s.path? c = some p ∧ p.rep = none ∧ decode (p.words.getD p.pos 0#32) = .ok (.mov 4#7 2#7)
      ∧ ({ s with agenda := none }).diverges c (.mov 4#7 2#7) = false)
    ∧ (∃ c p e, unready.agenda = some c ∧ unready.path? c = some p ∧ p.rep = none ∧ decode (p.words.getD p.pos 0#32) = .error e)
    ∧ ∃ c p r, let s := { stepping with cur := none, agenda := some { team := 2, gang := 0, path := 2 } }
      s.agenda = some c ∧ s.path? c = some p ∧ p.rep = some r ∧ (p.words.getD p.pos 0#32).extractLsb' 25 7 ≠ 0x0B#7
      ∧ decode (r.word (p.words.getD p.pos 0#32)) = .ok (.mov 5#7 3#7) := by
  let c : Cursor := { team := 2, gang := 0, path := 2 }
  obtain ⟨p, hp⟩ := Option.isSome_iff_exists.mp (show ((ready (.mov 4#7 2#7) fun _ => []).path? c).isSome = true by decide)
  obtain ⟨q, hq⟩ := Option.isSome_iff_exists.mp (show (unready.path? c).isSome = true by decide)
  obtain ⟨x, hx⟩ := Option.isSome_iff_exists.mp (show (stepping.path? c).isSome = true by decide)
  have hp' : ((ready (.mov 4#7 2#7) fun _ => []).path? c).map (fun p => (p.rep, decode (p.words.getD p.pos 0#32)))
      = some (none, .ok (.mov 4#7 2#7)) := by decide
  have hq' : (unready.path? c).map (fun p => (p.rep, decode (p.words.getD p.pos 0#32))) = some (none, .error (.reservedMajor 0)) := by decide
  have hx' : (stepping.path? c).map (fun p => (p.rep, p.words.getD p.pos 0#32))
      = some (some { count := 2, dStep := 1, aStep := 1, bStep := 0, done := 1 }, packR 0x25#7 0#4 4#7 2#7 0#7) := by decide
  rw [hp] at hp'; rw [hq] at hq'; rw [hx] at hx'
  simp only [Option.map_some, Option.some.injEq, Prod.mk.injEq] at hp' hq' hx'
  exact ⟨⟨c, p, rfl, hp, hp'.1, hp'.2, by decide⟩, ⟨c, q, _, rfl, hq, hq'⟩, ⟨c, x, _, rfl, hx, hx'.1, by rw [hx'.2]; decide, by rw [hx'.2]; decide⟩⟩

theorem test_meets_StepChooses : (State.reset.agenda = none ∧ State.reset.actions = [])
    ∧ ({ words with cur := none } : State).agenda = none ∧ ({ words with cur := none } : State).actions ≠ [] := by
  refine ⟨⟨rfl, by decide +kernel⟩, rfl, by decide +kernel⟩

theorem test_meets_UndecodableWord : ∃ i, ({ onThreads unready (fun th => { th with trapVec := 0x4000#64 }) with
    agenda := none, cur := some { team := 2, gang := 0, path := 2 } } : State).issue = some i
    ∧ i.replays = false ∧ decode i.word = .error (.reservedMajor 0) ∧ ∀ l ∈ i.active, (i.thread l).hasHandler := at_issue (by decide) (by dsimp only [Issue.writes, Issue.reads, Lane.writable, Lane.readable, Issue.free, Issue.lastWord, Issue.unheld, Thread.hasHandler, Core.clean]; decide)

/-- A REP whose last field is not zero. -/
theorem test_meets_UndecodableWord_rep : ∃ i, ({ onThreads (State.reset.withFetchWord 32 0x14000001) (fun th => { th with trapVec := 0x4000#64 }) with
    agenda := none, cur := some { team := 2, gang := 0, path := 2 } } : State).issue = some i
    ∧ i.replays = false ∧ (∃ e, decode i.word = .error e) ∧ Clause.isRep i.word ∧ ∀ l ∈ i.active, (i.thread l).hasHandler :=
  at_issue (by decide) ⟨by decide, ⟨_, rfl⟩, by unfold Clause.isRep; decide, by dsimp only [Issue.writes, Issue.reads, Lane.writable, Lane.readable, Issue.free, Issue.lastWord, Issue.unheld, Thread.hasHandler, Core.clean]; decide⟩

theorem test_meets_TrapEntries : ∀ depth vec, ∃ th team, let s := onThreads words fun th => { th with trapDepth := depth, trapVec := vec }
    s.thread? 2 0 0 = some th ∧ s.team? 2 = some team ∧ team.kill = none ∧ team.state ≠ .replay
    ∧ th.trapDepth = depth ∧ th.trapVec = vec :=
  fun _ _ => ⟨_, _, rfl, rfl, rfl, nofun, rfl, rfl⟩

theorem test_meets_StepKeepsCanonical : words.mem.wf = true ∧ ∃ t, step (ready (.mov 4#7 2#7) fun _ => []) = .next t := by
  refine ⟨by decide, ?_⟩
  have h : leaves (step (ready (.mov 4#7 2#7) fun _ => [])) (fun _ => true) = true := by decide
  unfold leaves at h
  split at h
  · exact ⟨_, ‹_›⟩
  · simp at h

end Sys2Proof.Tests
end

section
/-! PROOFS. The integer words that write one register from values of their own thread: ADDI and LEA (R168), the logic
words (R170) and SEL (R174). Each statement has two halves: what the decoder makes of the word, and what the word then
does, which is `plainWord` with a value to be compared with the specification's. -/

namespace Sys2Proof.Machine

/-! ## Encodings -/

/-- A fn field of LEA: below 4 its high half is zero. -/
theorem fn_high_eq_zero_iff (f : BitVec 4) : f.extractLsb' 2 2 = 0#2 ↔ f.toNat < 4 := by
  revert f; decide

/-- Major 0x2A with a scale (R168). -/
theorem decode_lea_of_lt (f : BitVec 4) (d a b : BitVec 7) (h : f.toNat < 4) :
    decode (packR 0x2A#7 f d a b) = .ok (.lea (f.setWidth 2) d a b) := by
  have hf : f = 0#2 ++ f.setWidth 2 := by revert f; decide
  calc decode (packR 0x2A#7 f d a b) = decode (packR 0x2A#7 (0#2 ++ f.setWidth 2) d a b) := by rw [← hf]
    _ = .ok (.lea (f.setWidth 2) d a b) := Laws.RoundTrip.lea _ d a b _ rfl

/-- Major 0x2A with a reserved fn value. -/
theorem decode_lea_reserved (f : BitVec 4) (d a b : BitVec 7) (h : 4 ≤ f.toNat) :
    ∃ e, decode (packR 0x2A#7 f d a b) = .error e := by
  have hf : f.extractLsb' 2 2 ≠ 0#2 := by rw [Ne, fn_high_eq_zero_iff]; omega
  rw [decode_packR _ _ _ _ _ (by decide)]
  change ∃ e, decodeMajor2A _ = _
  simp [decodeMajor2A, hf]

/-- Major 0x1A with a reserved fn value (R170). -/
theorem decode_logic_reserved (f : BitVec 4) (d a b : BitVec 7) (h : 6 ≤ f.toNat) :
    ∃ e, decode (packR 0x1A#7 f d a b) = .error e := by
  have hf : ∀ k : BitVec 4, k.toNat < 6 → f ≠ k := by rintro k hk rfl; omega
  rw [decode_packR _ _ _ _ _ (by decide)]
  change ∃ e, decodeMajor1A _ = _
  simp [decodeMajor1A, hf]

/-- SEL: its fn field holds negate and p (R174). -/
theorem decode_sel (n : BitVec 1) (p : BitVec 3) (d a b : BitVec 7) :
    decode (0x24#7 ++ n ++ p ++ d ++ a ++ b) = .ok (.sel n p d a b) := by
  have h : (0x24#7 ++ n ++ p : BitVec 11) = 0x24#7 ++ (n ++ p) := BitVec.append_assoc
  calc decode (0x24#7 ++ n ++ p ++ d ++ a ++ b) = decode (packR 0x24#7 (n ++ p) d a b) :=
        congrArg (fun x : BitVec 11 => decode (x ++ d ++ a ++ b)) h
    _ = .ok (.sel n p d a b) := Laws.RoundTrip.sel n p d a b _ rfl

/-! ## The words as `plainWord` -/

section Words
variable (s : State) (d a b : BitVec 7) (k : BitVec 11)

theorem exec_addi : exec (.addi d a k) s = plainWord s true (regs2 d a) d fun l => l.read a + k.signExtend 64 := rfl
theorem exec_lea (n : BitVec 2) :
    exec (.lea n d a b) s = plainWord s true (regs3 d a b) d fun l => l.read a + l.read b <<< n.toNat := rfl
theorem exec_and : exec (.and d a b) s = plainWord s true (regs3 d a b) d fun l => l.read a &&& l.read b := rfl
theorem exec_or : exec (.or d a b) s = plainWord s true (regs3 d a b) d fun l => l.read a ||| l.read b := rfl
theorem exec_xor : exec (.xor d a b) s = plainWord s true (regs3 d a b) d fun l => l.read a ^^^ l.read b := rfl
theorem exec_andn : exec (.andn d a b) s = plainWord s true (regs3 d a b) d fun l => l.read a &&& ~~~l.read b := rfl
theorem exec_orn : exec (.orn d a b) s = plainWord s true (regs3 d a b) d fun l => l.read a ||| ~~~l.read b := rfl
theorem exec_xnor : exec (.xnor d a b) s = plainWord s true (regs3 d a b) d fun l => ~~~(l.read a ^^^ l.read b) := rfl
theorem exec_andi : exec (.andi d a k) s = plainWord s true (regs2 d a) d fun l => l.read a &&& k.signExtend 64 := rfl
theorem exec_ori : exec (.ori d a k) s = plainWord s true (regs2 d a) d fun l => l.read a ||| k.signExtend 64 := rfl
theorem exec_xori : exec (.xori d a k) s = plainWord s true (regs2 d a) d fun l => l.read a ^^^ k.signExtend 64 := rfl
theorem exec_sel (n : BitVec 1) (p : BitVec 3) :
    exec (.sel n p d a b) s = plainWord s true (regs3 d a b) d fun l =>
      if l.thread.pred p.toNat != (n == 1#1) then l.read a else l.read b := rfl

end Words

/-! ## Effects -/

theorem regs2_ok {i : Issue} {d a : BitVec 7} (hd : i.writes d) (hr : i.reads [a]) :
    ∀ l ∈ i.active, ∀ x ∈ regs2 d a, x.Ok (i.lane l) := by
  intro l hl
  simp only [regs2, List.forall_mem_cons]
  exact ⟨Issue.ok_dst hd hl, Issue.ok_src hr hl (by simp), by simp⟩

theorem regs3_ok {i : Issue} {d a b : BitVec 7} (hd : i.writes d) (hr : i.reads [a, b]) :
    ∀ l ∈ i.active, ∀ x ∈ regs3 d a b, x.Ok (i.lane l) := by
  intro l hl
  simp only [regs3, List.forall_mem_cons]
  exact ⟨Issue.ok_dst hd hl, Issue.ok_src hr hl (by simp), Issue.ok_src hr hl (by simp), by simp⟩

/-- A word of the plain shape gives each active thread the value that its function computes from the thread's lane. -/
theorem givesAll_of_plainWord {s : State} {i : Issue} {d : BitVec 7} {w : Instr} {fs : List Field} {f : Lane → W64}
    {v : Nat → W64} (hw : exec w s = plainWord s true fs d f) (hi : s.issue = some i)
    (hf : ∀ l ∈ i.active, ∀ x ∈ fs, x.Ok (i.lane l)) (hv : ∀ l, f (i.lane l) = v l) : Says.givesAll s i d w v := by
  obtain ⟨t, ht, hregs⟩ := plainWord_effect s i hi fs d f hf
  exact ⟨t, hw.trans ht, hregs.congr hi fun l _ => by rw [hv l]⟩

/-! ## Values -/

/-- A sum with a signed immediate is the wrapped sum of integers. -/
theorem add_signExtend_eq_ofInt {n : Nat} (x : W64) (k : BitVec n) :
    x + k.signExtend 64 = BitVec.ofInt 64 (x.toNat + k.toInt) := by
  rw [BitVec.ofInt_add, BitVec.ofInt_natCast, BitVec.ofNat_toNat, BitVec.setWidth_eq, BitVec.signExtend]

/-- The scales of LEA are the powers of two that its field counts. -/
theorem lea_scale (k : BitVec 2) :
    (if k = 0#2 then 1 else if k = 1#2 then 2 else if k = 2#2 then 4 else 8) = 2 ^ k.toNat := by
  revert k; decide

/-- A sum with a shifted register is the wrapped sum with its multiple. -/
theorem add_shiftLeft_eq_ofNat (x y : W64) (n : Nat) :
    x + y <<< n = BitVec.ofNat 64 (x.toNat + y.toNat * 2 ^ n) := by
  apply BitVec.eq_of_toNat_eq
  simp [BitVec.toNat_shiftLeft, Nat.shiftLeft_eq]

/-- A register whose bits are those of a function of the bits of two others. -/
theorem eq_ofFnLE_of_bits {r x y : W64} {f : Bool → Bool → Bool}
    (h : ∀ j < 64, r.getLsbD j = f (x.getLsbD j) (y.getLsbD j)) :
    r = BitVec.ofFnLE fun j : Fin 64 => f (x.getLsbD j) (y.getLsbD j) := by
  apply BitVec.eq_of_getLsbD_eq
  intro j hj
  rw [h j hj, BitVec.getLsbD_ofFnLE, dif_pos hj]

theorem and_eq_ofFnLE (x y : W64) :
    x &&& y = BitVec.ofFnLE fun j : Fin 64 => x.getLsbD j && y.getLsbD j :=
  eq_ofFnLE_of_bits fun _ _ => BitVec.getLsbD_and

theorem or_eq_ofFnLE (x y : W64) :
    x ||| y = BitVec.ofFnLE fun j : Fin 64 => x.getLsbD j || y.getLsbD j :=
  eq_ofFnLE_of_bits fun _ _ => BitVec.getLsbD_or

theorem xor_eq_ofFnLE (x y : W64) :
    x ^^^ y = BitVec.ofFnLE fun j : Fin 64 => xor (x.getLsbD j) (y.getLsbD j) :=
  eq_ofFnLE_of_bits fun _ _ => BitVec.getLsbD_xor

theorem andn_eq_ofFnLE (x y : W64) :
    x &&& ~~~y = BitVec.ofFnLE fun j : Fin 64 => x.getLsbD j && !y.getLsbD j :=
  eq_ofFnLE_of_bits (f := fun p q => p && !q) fun j hj => by simp [hj]

theorem orn_eq_ofFnLE (x y : W64) :
    x ||| ~~~y = BitVec.ofFnLE fun j : Fin 64 => x.getLsbD j || !y.getLsbD j :=
  eq_ofFnLE_of_bits (f := fun p q => p || !q) fun j hj => by simp [hj]

theorem xnor_eq_ofFnLE (x y : W64) :
    ~~~(x ^^^ y) = BitVec.ofFnLE fun j : Fin 64 => !xor (x.getLsbD j) (y.getLsbD j) :=
  eq_ofFnLE_of_bits (f := fun p q => !xor p q) fun j hj => by simp [hj]

theorem sel_choice (p : BitVec 8) (k : Nat) (n : BitVec 1) :
    (p.getLsbD k != (n == 1#1)) = xor (p.getLsbD k) (n.getLsbD 0) := by
  have hn : ∀ n : BitVec 1, (n == 1#1) = n.getLsbD 0 := by decide
  rw [hn]

/-! ## The statements -/

/-- Settles O2: the words decode by `packI` and `packR`, and act by `givesAll_of_plainWord`. -/
theorem addressArithmetic : Obligations.AddressArithmetic := by
  refine ⟨fun d a b k f => ⟨Laws.RoundTrip.addi d a k _ rfl, decode_lea_of_lt f d a b, decode_lea_reserved f d a b⟩,
    fun s i d a b hi hd => ⟨fun hr k => ?_, fun hr k => ?_⟩⟩
  · exact givesAll_of_plainWord (exec_addi s d a k) hi (regs2_ok hd hr) fun l => add_signExtend_eq_ofInt _ k
  · refine givesAll_of_plainWord (exec_lea s d a b k) hi (regs3_ok hd hr) fun l => ?_
    rw [lea_scale]
    exact add_shiftLeft_eq_ofNat _ _ _

/-- Settles O3: each word is `plainWord` with a bitwise operation, compared bit by bit. -/
theorem logicWords : Obligations.LogicWords := by
  refine ⟨fun d a b k => ?_, fun s i d a b hi hd => ⟨fun hr => ?_, fun hr k => ?_⟩⟩
  · exact ⟨Laws.RoundTrip.and d a b _ rfl, Laws.RoundTrip.or d a b _ rfl, Laws.RoundTrip.xor d a b _ rfl,
      Laws.RoundTrip.andn d a b _ rfl, Laws.RoundTrip.orn d a b _ rfl, Laws.RoundTrip.xnor d a b _ rfl,
      fun f => decode_logic_reserved f d a b, Laws.RoundTrip.andi d a k _ rfl, Laws.RoundTrip.ori d a k _ rfl,
      Laws.RoundTrip.xori d a k _ rfl⟩
  · have ok := regs3_ok hd hr
    exact ⟨givesAll_of_plainWord (exec_and s d a b) hi ok fun l => and_eq_ofFnLE _ _,
      givesAll_of_plainWord (exec_or s d a b) hi ok fun l => or_eq_ofFnLE _ _,
      givesAll_of_plainWord (exec_xor s d a b) hi ok fun l => xor_eq_ofFnLE _ _,
      givesAll_of_plainWord (exec_andn s d a b) hi ok fun l => andn_eq_ofFnLE _ _,
      givesAll_of_plainWord (exec_orn s d a b) hi ok fun l => orn_eq_ofFnLE _ _,
      givesAll_of_plainWord (exec_xnor s d a b) hi ok fun l => xnor_eq_ofFnLE _ _⟩
  · have ok := regs2_ok hd hr
    exact ⟨givesAll_of_plainWord (exec_andi s d a k) hi ok fun l => and_eq_ofFnLE _ _,
      givesAll_of_plainWord (exec_ori s d a k) hi ok fun l => or_eq_ofFnLE _ _,
      givesAll_of_plainWord (exec_xori s d a k) hi ok fun l => xor_eq_ofFnLE _ _⟩

/-- Settles O4: the fn field packs negate and p, and the model's choice is the XOR of the two bits. -/
theorem selectWord : Obligations.SelectWord := by
  refine ⟨decode_sel, fun s i n p d a b hi hd hr => ?_⟩
  refine givesAll_of_plainWord (exec_sel s d a b n p) hi (regs3_ok hd hr) fun l => ?_
  exact congrArg (fun c : Bool => if c = true then i.val l a else i.val l b) (sel_choice _ _ _)

end Sys2Proof.Machine
end
